-- ==== Sys2Proof/Word.lean ====
section
/-! DEFINITION. The word types of VGCSC (00_scope R5, 20_memory R51, 30_encoding R70, R72). -/

namespace Sys2Proof

/-- One colour channel, one output sample, one character of text: 8 bits (00_scope R5 `CHW`, 20_memory R51). -/
abbrev Byte := BitVec 8

/-- A control register or an operand: 32 bits (00_scope R5 `REGW`). -/
abbrev Word := BitVec 32

/-- A command word or a response word: 40 bits, delivered as one unit (00_scope R5 `CMDW`, `RSPW`; 20_memory R56). -/
abbrev PortWord := BitVec 40

/-- One pixel: three 8-bit channels `(r, g, b)` (20_memory R51). -/
structure Pixel where
  r : Byte
  g : Byte
  b : Byte
deriving DecidableEq, Repr

end Sys2Proof
end

