-- ==== Sys2Proof/Config.lean ====
section
/-! DEFINITION. What an implementation fixes (PB_CAPACITY, 00_scope R6), the fixed sizes (R5), and the free value of the model:
the sink's answers (20_memory R58). -/

namespace Sys2Proof

/-- What the output sink answers to one emission of L bytes (20_memory R58): it takes all of them, or the first `n` only
(all of them when `n` is L or more). Every count 0 to L is one of the two. -/
inductive SinkAnswer where
  | takesAll
  | takes (n : Nat)
deriving DecidableEq, Repr, Inhabited

/-- Largest extension length that is emitted (00_scope R5 `EXT_MAX`); also the size of EXT (10_state R36). -/
def Config.extMax : Nat := 200

/-- How far PB_CAPACITY stays below its upper bound 2^32 - 1: any of 0 to 2^32 - 2, open (00_scope R6; log 5). -/
opaque Config.pbCapacitySlack : Fin (4294967294 + 1)

/-- PB_CAPACITY, the number of pixels PB can hold: some natural number with 1 <= PB_CAPACITY < 2^32, and every such number is
a possible value (00_scope R6, 93_implementation_defined U11). DESIGN CHOICE (log 5): no value is chosen. -/
def Config.pbCapacity : Nat := 4294967295 - Config.pbCapacitySlack.val

/-- The sink's answer to the emission numbered `k`, where no script in State says it: free (20_memory R58, log 2). -/
opaque Config.sinkAnswer : Nat → SinkAnswer

end Sys2Proof
end

