-- ==== Sys2Proof/Machine/State.lean ====
section
/-! DEFINITION. The state of VGCSC (10_state R20), its reset values (R42), and the reasons the MODEL can stop. Beside the spec's
state it holds the parameter PB_CAPACITY and the environment's part: the host's events still to arrive, the sink's answers, the
histories of emitted bytes and of responses. All of it is plain data. -/

namespace Sys2Proof.Machine

/-- STATE, the session state: 0 IDLE, 1 OPEN, 2 FAILED; the value 3 is never held (10_state R22). -/
inductive Session where
  | idle
  | opened
  | failed
deriving DecidableEq, Repr

/-- MODE, the colour space of a session: codes 0 to 4 and no others (10_state R31, 30_encoding R77). -/
inductive Mode where
  | c444
  | c422
  | c420
  | c411
  | c410
deriving DecidableEq, Repr

/-- The spec's fault codes 1 to 11 (60_exceptions R200). They are state of the machine (ERR), not stops of the model. -/
inductive ErrorCode where
  | openError
  | formatError
  | dimensionMismatch
  | zeroSizeOutput
  | allocation
  | io
  | containerHeader
  | illegalCommand
  | sequence
  | bufferOverrun
  | frameIncomplete
deriving DecidableEq, Repr

/-- What reaches the block from the host: a command word (30_encoding R70), or the hardware reset (70_reset_and_hazards R230). -/
inductive PortEvent where
  | command (w : PortWord)
  | hardwareReset
deriving DecidableEq, Repr

/-- The state. The fields up to `pb` are 10_state R20's list; those after it are the model's own (INVENTORY.md, State). -/
structure State where
  /-- STATE (R22) -/
  session : Session
  /-- WARN, the C410 advisory (R37) -/
  warn : Bool
  /-- ERR, the first fault since reset; none reads as 0 (R26) -/
  err : Option ErrorCode
  /-- NW (R27) -/
  nw : Word
  /-- NH (R27) -/
  nh : Word
  /-- FRN (R28) -/
  frn : Word
  /-- FRD (R28) -/
  frd : Word
  /-- PARN (R29) -/
  parn : Word
  /-- PARD (R29) -/
  pard : Word
  /-- IL, bits 7:0; bits 31:8 are hardwired 0 (R30) -/
  il : Byte
  /-- MODE (R31) -/
  mode : Mode
  /-- EW (R32) -/
  ew : Word
  /-- EH (R32) -/
  eh : Word
  /-- WP (R33) -/
  wp : Word
  /-- FRAMES (R34) -/
  frames : Word
  /-- BYTES, `{BYTESHI, BYTESLO}` (R35) -/
  bytes : BitVec 64
  /-- EXTLEN (R36) -/
  extlen : Word
  /-- EXT, in canonical form: addresses rising, no byte listed that an unlisted address reads as (R36; log 6) -/
  ext : List Host.Cell
  /-- PB, in the same canonical form (20_memory R52; log 6) -/
  pb : List (Nat × Pixel)
  /-- The parameter PB_CAPACITY (00_scope R6; log 5): read, never written -/
  pbCapacity : Nat
  /-- The host's events still to arrive, in arrival order (20_memory R60; log 1) -/
  port : List PortEvent
  /-- The sink's answers to the next emissions, as far as they are given (20_memory R58; log 2) -/
  sinkScript : List SinkAnswer
  /-- How many emissions there have been: it numbers the sink's free answers (20_memory R58; log 2) -/
  sinkDraws : Nat
  /-- The bytes the sink has received, oldest first (20_memory R57; log 3) -/
  out : List Byte
  /-- The response words given, oldest first (30_encoding R72; log 4) -/
  responses : List PortWord
deriving DecidableEq, Repr

/-- Why the model stops. No run from reset reaches one of these. -/
inductive Fault where
  /-- PIX or FRAME would access PB at an index that PB does not have (20_memory R52: indices 0 to PB_CAPACITY-1); `index` is the
  first such index. Raised by execPix and execFrame. Safe (log 8): the model stops, in states no run reaches. -/
  | noSuchPixel (index : Nat)
deriving DecidableEq, Repr

/-- Why the model gives an instruction no meaning. -/
inductive Refusal where
  /-- The instruction has no meaning yet: raised only by an arm of `exec` that says so (no arm does). Safe: the model stops. -/
  | notModelled (mnemonic : String)
deriving DecidableEq, Repr

/-- What a command ends in. -/
abbrev Result := Host.Outcome State Fault Refusal

/-- Right after reset (10_state R42). PB and EXT list nothing (their contents are unspecified, R231; log 6); the model's own
fields are empty, with the free PB_CAPACITY (log 1 to 5). -/
def State.reset : State where
  session := .idle
  warn := false
  err := none
  nw := 0#32
  nh := 0#32
  frn := 0#32
  frd := 0#32
  parn := 1#32
  pard := 1#32
  il := 0x70#8
  mode := .c444
  ew := 0#32
  eh := 0#32
  wp := 0#32
  frames := 0#32
  bytes := 0#64
  extlen := 0#32
  ext := []
  pb := []
  pbCapacity := Config.pbCapacity
  port := []
  sinkScript := []
  sinkDraws := 0
  out := []
  responses := []

end Sys2Proof.Machine
end

