-- ==== Sys2Proof/Machine/Converter.lean ====
section
/-! DEFINITION. The colour converter: exact arithmetic in thousandths, one rounding, half up, capped at 255
(41_colour_converter R100 to R112). Pure functions of pixels. -/

namespace Sys2Proof.Machine

/-- `NY(p)`, 1000 times the luma formula (41_colour_converter R100). -/
def rawLuma (p : Pixel) : Int := 299 * p.r.toNat + 587 * p.g.toNat + 114 * p.b.toNat

/-- `NCB(p)`, 1000 times the chroma blue formula (R100). -/
def rawBlue (p : Pixel) : Int := 128000 - 169 * p.r.toNat - 331 * p.g.toNat + 500 * p.b.toNat

/-- `NCR(p)`, 1000 times the chroma red formula (R100). -/
def rawRed (p : Pixel) : Int := 128000 + 500 * p.r.toNat - 419 * p.g.toNat - 81 * p.b.toNat

/-- `RND(S, k)` as a number: `min(255, (S + 500*k) div (1000*k))` (R102). -/
def roundedNat (sum : Int) (k : Nat) : Nat := (min 255 ((sum + 500 * k) / (1000 * k))).toNat

/-- `RND(S, k)` as a sample (R102). -/
def rounded (sum : Int) (k : Nat) : Byte := BitVec.ofNat 8 (roundedNat sum k)

/-- The sum of the raw values of some pixels (R106, R107). -/
def rawSum (raw : Pixel → Int) : List Pixel → Int
  | [] => 0
  | p :: ps => raw p + rawSum raw ps

/-- `luma(p) = RND(NY(p), 1)` (R103). -/
def luma (p : Pixel) : Byte := rounded (rawLuma p) 1

/-- `chroma_blue(p) = RND(NCB(p), 1)` (R104). -/
def chromaBlue (p : Pixel) : Byte := rounded (rawBlue p) 1

/-- `chroma_red(p) = RND(NCR(p), 1)` (R105). -/
def chromaRed (p : Pixel) : Byte := rounded (rawRed p) 1

/-- `chroma_blue_avg(k, p1, ..., pk)`: add the raw values, round once (R106); for one pixel it is `chroma_blue` (R104). -/
def chromaBlueAvg (ps : List Pixel) : Byte := rounded (rawSum rawBlue ps) ps.length

/-- `chroma_red_avg(k, p1, ..., pk)` (R107); for one pixel it is `chroma_red` (R105). -/
def chromaRedAvg (ps : List Pixel) : Byte := rounded (rawSum rawRed ps) ps.length

end Sys2Proof.Machine
end

