-- ==== Sys2Proof/Machine/Memory.lean ====
section
/-! DEFINITION. Memory as a list of (address, element) pairs in one canonical form: addresses strictly rising, and no entry equal
to what an unlisted address reads as. One form for both memories: PB, whose element is a pixel, and EXT, whose element is a byte
(20_memory R50, R51). -/

namespace Sys2Proof.Machine

/-- What a byte of EXT that is not listed reads as (unspecified by the spec, 10_state R42; DESIGN CHOICE, log 6). -/
def Memory.blankByte : Byte := 0x00#8

/-- What a pixel of PB that is not listed reads as (unspecified by the spec, 10_state R42; DESIGN CHOICE, log 6). -/
def Memory.blankPixel : Pixel := ⟨0x00#8, 0x00#8, 0x00#8⟩

/-- `MemRead`: the element at address `a`, `blank` where nothing is listed (00_scope R8). -/
def Memory.read {α : Type} (blank : α) : List (Nat × α) → Nat → α
  | [], _ => blank
  | (b, x) :: rest, a => if a = b then x else Memory.read blank rest a

/-- `MemWrite`: the memory with `v` at address `a` (00_scope R8), in canonical form again. -/
def Memory.write {α : Type} [DecidableEq α] (blank : α) (a : Nat) (v : α) : List (Nat × α) → List (Nat × α)
  | [] => if v = blank then [] else [(a, v)]
  | (b, x) :: rest =>
    if a < b then (if v = blank then (b, x) :: rest else (a, v) :: (b, x) :: rest)
    else if a = b then (if v = blank then rest else (a, v) :: rest)
    else (b, x) :: Memory.write blank a v rest

/-- All addresses are below `size` and at or above `from`, strictly rising, and no element is `blank`. -/
def Memory.wfFrom {α : Type} [DecidableEq α] (blank : α) (size : Nat) : Nat → List (Nat × α) → Bool
  | _, [] => true
  | start, (b, x) :: rest =>
    decide (start ≤ b) && decide (b < size) && decide (x ≠ blank) && Memory.wfFrom blank size (b + 1) rest

/-- The canonical form, for a memory whose addresses are 0 to `size - 1`. -/
def Memory.wf {α : Type} [DecidableEq α] (blank : α) (size : Nat) (m : List (Nat × α)) : Bool :=
  Memory.wfFrom blank size 0 m

/-- `MemRead(PB[i], 1)` (20_memory R52). -/
def State.pixelAt (s : State) (i : Nat) : Pixel := Memory.read Memory.blankPixel s.pb i

/-- `MemRead(EXT[i], 1)` (20_memory R55). -/
def State.extAt (s : State) (i : Nat) : Byte := Memory.read Memory.blankByte s.ext i

/-- `px(i, j)`: the pixel in row `i`, column `j` of the picture, at index `i * EW + j` (20_memory R52). -/
def State.px (s : State) (i j : Nat) : Pixel := s.pixelAt (i * s.ew.toNat + j)

end Sys2Proof.Machine
end

