-- ==== Sys2Proof/Machine/Ops.lean ====
section
/-! DEFINITION. The operations the commands share: the response (30_encoding R72), fault entry (60_exceptions R210), the refusal in
state FAILED (R212), the way out of it (R213, 10_state R42), the check of the session state (44_session_commands R160, R161), and
`Emit` with the sink's answer (20_memory R57, R58). -/

namespace Sys2Proof

/-- How many of the `len` bytes of an emission the sink takes: some `n` with 0 <= n <= len (20_memory R58). -/
def SinkAnswer.accepted (a : SinkAnswer) (len : Nat) : Nat :=
  match a with
  | .takesAll => len
  | .takes n => min n len

end Sys2Proof

namespace Sys2Proof.Machine

/-- The number of a fault code (60_exceptions R200). -/
def ErrorCode.code : ErrorCode → Byte
  | .openError => 1#8
  | .formatError => 2#8
  | .dimensionMismatch => 3#8
  | .zeroSizeOutput => 4#8
  | .allocation => 5#8
  | .io => 6#8
  | .containerHeader => 7#8
  | .illegalCommand => 8#8
  | .sequence => 9#8
  | .bufferOverrun => 10#8
  | .frameIncomplete => 11#8

/-- Code 12, SessionFailed: a response code only, never in ERR (60_exceptions R200, R212). -/
def sessionFailedCode : Byte := 12#8

/-- `respond(err, data)`: the response word is `{err, data}` (30_encoding R72). -/
def State.respond (err : Byte) (data : Word) (s : State) : State :=
  { s with responses := s.responses ++ [err ++ data] }

/-- A command performed without fault (44_session_commands R162). -/
def State.done (data : Word) (s : State) : State := s.respond 0#8 data

/-- `raise`: TAKING A FAULT (60_exceptions R210): ERR gets the code, STATE becomes FAILED, the response is `{code, 0}`; nothing
else is saved and nothing else changes. -/
def State.raise (c : ErrorCode) (s : State) : State :=
  State.respond c.code 0#32 { s with err := some c, session := .failed }

/-- The refusal of a command in state FAILED: `respond(12, 0)` and no effect (60_exceptions R212). -/
def State.refuse (s : State) : State := s.respond sessionFailedCode 0#32

/-- Every register and flag at its reset value (10_state R42): the way out of state FAILED (60_exceptions R213). PB and EXT keep
their contents (70_reset_and_hazards R231; log 7), the environment's part is untouched (R230). -/
def State.toReset (s : State) : State :=
  { State.reset with
    ext := s.ext, pb := s.pb, pbCapacity := s.pbCapacity, port := s.port, sinkScript := s.sinkScript,
    sinkDraws := s.sinkDraws, out := s.out, responses := s.responses }

/-- A command legal in IDLE only: SequenceError in OPEN, refused in FAILED (44_session_commands R160, R161). -/
def whenIdle (run : State → Result) (s : State) : Result :=
  match s.session with
  | .idle => run s
  | .opened => .next (s.raise .sequence)
  | .failed => .next s.refuse

/-- A command legal in OPEN only: SequenceError in IDLE, refused in FAILED (44_session_commands R160, R161). -/
def whenOpened (run : State → Result) (s : State) : Result :=
  match s.session with
  | .idle => .next (s.raise .sequence)
  | .opened => run s
  | .failed => .next s.refuse

/-- A command legal in IDLE and OPEN, refused in FAILED (44_session_commands R160, R161). -/
def whenNotFailed (run : State → Result) (s : State) : Result :=
  match s.session with
  | .idle => run s
  | .opened => run s
  | .failed => .next s.refuse

/-- A malformed RD or RESET: IllegalCommand in IDLE and OPEN; in FAILED the response is 8 and nothing changes
(44_session_commands R183, R185; 60_exceptions R212). -/
def State.rejectMalformed (s : State) : State :=
  match s.session with
  | .idle => s.raise .illegalCommand
  | .opened => s.raise .illegalCommand
  | .failed => s.respond ErrorCode.illegalCommand.code 0#32

/-- What an illegal word with this opcode does (44_session_commands R160): IllegalCommand in IDLE and OPEN; in FAILED the response
is 8 for a malformed RD (0x30) or RESET (0x3F) and 12 for any other word, and nothing changes. -/
def State.rejectIllegal (op : Byte) (s : State) : State :=
  match s.session with
  | .idle => s.raise .illegalCommand
  | .opened => s.raise .illegalCommand
  | .failed => if op = 0x30#8 ∨ op = 0x3F#8 then s.rejectMalformed else s.refuse

/-- The sink's answer to the next emission: the script's where it has one, else the free answer of this emission's number
(20_memory R58; log 2). -/
def State.sinkAnswer (s : State) : SinkAnswer :=
  match s.sinkScript with
  | a :: _ => a
  | [] => Config.sinkAnswer s.sinkDraws

/-- The sink takes the first `n` bytes: `out` grows by them, BYTES counts them modulo 2^64 (20_memory R58), the answer is used. -/
def State.sinkTakes (n : Nat) (bytes : List Byte) (s : State) : State :=
  { s with
    out := s.out ++ bytes.take n
    bytes := s.bytes + BitVec.ofNat 64 n
    sinkScript := s.sinkScript.tail
    sinkDraws := s.sinkDraws + 1 }

/-- `Emit(bytes)`, then the rest of the command; IoError after the accepted prefix when the sink did not take all
(20_memory R58, 00_scope R8). -/
def emit (bytes : List Byte) (rest : State → Result) (s : State) : Result :=
  let n := s.sinkAnswer.accepted bytes.length
  if n < bytes.length then .next ((s.sinkTakes n bytes).raise .io)
  else rest (s.sinkTakes n bytes)

end Sys2Proof.Machine
end

