-- ==== Sys2Proof/Machine/Flags.lean ====
section
/-! DEFINITION. The status indications: the block has no arithmetic flags (10_state R37); STATUS is {0, WARN, STATE} (R25). -/

namespace Sys2Proof.Machine

/-- STATUS[1:0], the number of a session state (10_state R22). -/
def Session.code : Session → BitVec 2
  | .idle => 0#2
  | .opened => 1#2
  | .failed => 2#2

/-- The WARN advisory of a mode: set for C410 only (10_state R37). -/
def Mode.advisory : Mode → Bool
  | .c444 => false
  | .c422 => false
  | .c420 => false
  | .c411 => false
  | .c410 => true

/-- The STATUS register: bits 1:0 STATE, bit 2 WARN, bits 31:3 zero (10_state R25). -/
def State.statusWord (s : State) : Word := 0#29 ++ BitVec.ofBool s.warn ++ s.session.code

/-- The ERR register: CODE in bits 7:0, 0 while there was no fault, bits 31:8 zero (10_state R26). -/
def State.errWord (s : State) : Word :=
  match s.err with
  | none => 0#32
  | some c => c.code.setWidth 32

/-- The response data of OPEN: bit 0 is WARN (44_session_commands R162). -/
def State.warnWord (s : State) : Word := (BitVec.ofBool s.warn).setWidth 32

end Sys2Proof.Machine
end

