-- ==== Sys2Proof/Machine/Operands.lean ====
section
/-! DEFINITION. What operand values name: control registers (form R; 10_state R24), upstream errors (form E; 44_session_commands
R182), colour-space codes (form M; 30_encoding R77), and the packed samples of CONV (20_memory R56). The bits of each form are read
in Decode.lean. -/

namespace Sys2Proof.Machine

/-- The seventeen control registers (10_state R24). -/
inductive ControlReg where
  | status
  | err
  | nw
  | nh
  | frn
  | frd
  | parn
  | pard
  | il
  | mode
  | ew
  | eh
  | wp
  | frames
  | bytesLo
  | bytesHi
  | extlen
deriving DecidableEq, Repr

/-- The register with an RD index; none above 0x10 (10_state R24, R44). -/
def ControlReg.ofIndex (k : Byte) : Option ControlReg :=
  match k with
  | 0x00#8 => some .status
  | 0x01#8 => some .err
  | 0x02#8 => some .nw
  | 0x03#8 => some .nh
  | 0x04#8 => some .frn
  | 0x05#8 => some .frd
  | 0x06#8 => some .parn
  | 0x07#8 => some .pard
  | 0x08#8 => some .il
  | 0x09#8 => some .mode
  | 0x0A#8 => some .ew
  | 0x0B#8 => some .eh
  | 0x0C#8 => some .wp
  | 0x0D#8 => some .frames
  | 0x0E#8 => some .bytesLo
  | 0x0F#8 => some .bytesHi
  | 0x10#8 => some .extlen
  | _ => none

/-- The number of a mode (10_state R31, 30_encoding R77). -/
def Mode.code : Mode → Byte
  | .c444 => 0#8
  | .c422 => 1#8
  | .c420 => 2#8
  | .c411 => 3#8
  | .c410 => 4#8

/-- `x[NAME]`: the 32-bit value of a control register (10_state R24 to R36). -/
def State.readReg (s : State) : ControlReg → Word
  | .status => s.statusWord
  | .err => s.errWord
  | .nw => s.nw
  | .nh => s.nh
  | .frn => s.frn
  | .frd => s.frd
  | .parn => s.parn
  | .pard => s.pard
  | .il => s.il.setWidth 32
  | .mode => s.mode.code.setWidth 32
  | .ew => s.ew
  | .eh => s.eh
  | .wp => s.wp
  | .frames => s.frames
  | .bytesLo => s.bytes.extractLsb' 0 32
  | .bytesHi => s.bytes.extractLsb' 32 32
  | .extlen => s.extlen

/-- The upstream error an ABORT code reports; only 1, 2 and 3 do (44_session_commands R182). -/
def upstreamError (c : Byte) : Option ErrorCode :=
  match c with
  | 0x01#8 => some .openError
  | 0x02#8 => some .formatError
  | 0x03#8 => some .dimensionMismatch
  | _ => none

/-- `{0x00, Y, Cb, Cr}` (44_session_commands R184, 20_memory R56). -/
def packSamples (y cb cr : Byte) : Word := 0#8 ++ y ++ cb ++ cr

end Sys2Proof.Machine
end

