-- ==== Sys2Proof/Machine/Access.lean ====
section
/-! DEFINITION. The access commands (44_session_commands R183 to R185): RD, CONV, RESET. -/

namespace Sys2Proof.Machine

/-- RD: read a control register, in every session state (R183); an index above 0x10 is a malformed RD (10_state R44). -/
def execRd (k : Byte) (s : State) : Result :=
  match ControlReg.ofIndex k with
  | some r => .next (s.done (s.readReg r))
  | none => .next s.rejectMalformed

/-- CONV: respond with the three samples of one pixel; no state changes (R184). -/
def execConv (p : Pixel) (s : State) : Result :=
  whenNotFailed (fun s => .next (s.done (packSamples (luma p) (chromaBlue p) (chromaRed p)))) s

/-- RESET: return to the reset state, in every session state (R185). -/
def execReset (s : State) : Result := .next (State.done 0#32 s.toReset)

end Sys2Proof.Machine
end

