-- ==== Sys2Proof/Machine/Configuration.lean ====
section
/-! DEFINITION. The configuration commands (44_session_commands R163 to R171): each writes one register, in IDLE only. -/

namespace Sys2Proof.Machine

/-- SETNW: `x[NW] <- arg` (R163). -/
def execSetnw (v : Word) (s : State) : Result := whenIdle (fun s => .next (State.done 0#32 { s with nw := v })) s

/-- SETNH: `x[NH] <- arg` (R164). -/
def execSetnh (v : Word) (s : State) : Result := whenIdle (fun s => .next (State.done 0#32 { s with nh := v })) s

/-- SETFRN: `x[FRN] <- arg` (R165). -/
def execSetfrn (v : Word) (s : State) : Result := whenIdle (fun s => .next (State.done 0#32 { s with frn := v })) s

/-- SETFRD: `x[FRD] <- arg` (R166). -/
def execSetfrd (v : Word) (s : State) : Result := whenIdle (fun s => .next (State.done 0#32 { s with frd := v })) s

/-- SETPARN: `x[PARN] <- arg` (R167). -/
def execSetparn (v : Word) (s : State) : Result := whenIdle (fun s => .next (State.done 0#32 { s with parn := v })) s

/-- SETPARD: `x[PARD] <- arg` (R168). -/
def execSetpard (v : Word) (s : State) : Result := whenIdle (fun s => .next (State.done 0#32 { s with pard := v })) s

/-- SETIL: `x[IL] <- zext_32(arg[7:0])`; bits 31:8 of IL are hardwired 0 (R169, 10_state R30). -/
def execSetil (c : Byte) (s : State) : Result := whenIdle (fun s => .next (State.done 0#32 { s with il := c })) s

/-- EXTCLR: `x[EXTLEN] <- 0`; the bytes of EXT are not erased (R170). -/
def execExtclr (s : State) : Result := whenIdle (fun s => .next (State.done 0#32 { s with extlen := 0#32 })) s

/-- EXTB's push: stored and counted while EXTLEN < 200, else dropped and EXTLEN becomes 201 (R171, 10_state R36). -/
def State.pushExt (c : Byte) (s : State) : State :=
  if s.extlen.toNat < Config.extMax then
    { s with
      ext := Memory.write Memory.blankByte s.extlen.toNat c s.ext
      extlen := s.extlen + 1#32 }
  else { s with extlen := 201#32 }

/-- EXTB: append one byte to the extension (R171). -/
def execExtb (c : Byte) (s : State) : Result := whenIdle (fun s => .next (State.done 0#32 (s.pushExt c))) s

end Sys2Proof.Machine
end

