-- ==== Sys2Proof/Machine/Subsampler.lean ====
section
/-! DEFINITION. The chroma subsampler: the crop rule, the five plane layouts, the sizes and the bytes of a frame
(42_subsampler R120 to R133; the marker is 43_y4m_framer R148). Pure functions of the dimensions and of the picture, given as
`px i j`, the pixel in row `i` and column `j`. The divisions are exact in every session (R122; log 16). -/

namespace Sys2Proof.Machine

/-- HX, picture columns per chroma sample (42_subsampler R120). -/
def Mode.hx : Mode → Nat
  | .c444 => 1
  | .c422 => 2
  | .c420 => 2
  | .c411 => 4
  | .c410 => 4

/-- VY, picture rows per chroma sample (R120). -/
def Mode.vy : Mode → Nat
  | .c444 => 1
  | .c422 => 1
  | .c420 => 2
  | .c411 => 1
  | .c410 => 2

/-- EW of `CROP(mode, NW, NH)` (R121). -/
def cropWidth (m : Mode) (nw : Word) : Nat := nw.toNat - nw.toNat % m.hx

/-- EH of `CROP(mode, NW, NH)` (R121). -/
def cropHeight (m : Mode) (nh : Word) : Nat := nh.toNat - nh.toNat % m.vy

/-- The pixels (row, column) that feed chroma sample (i, j), as each layout writes them: C444 (R124), C422 (R125), C420 (R126),
C411 (R127), C410 (R128). -/
def Mode.block : Mode → Nat → Nat → List (Nat × Nat)
  | .c444, i, j => [(i, j)]
  | .c422, i, j => [(i, 2 * j), (i, 2 * j + 1)]
  | .c420, i, j => [(2 * i, 2 * j), (2 * i, 2 * j + 1), (2 * i + 1, 2 * j), (2 * i + 1, 2 * j + 1)]
  | .c411, i, j => [(i, 4 * j), (i, 4 * j + 1), (i, 4 * j + 2), (i, 4 * j + 3)]
  | .c410, i, j =>
    [(2 * i, 4 * j), (2 * i, 4 * j + 1), (2 * i, 4 * j + 2), (2 * i, 4 * j + 3),
     (2 * i + 1, 4 * j), (2 * i + 1, 4 * j + 1), (2 * i + 1, 4 * j + 2), (2 * i + 1, 4 * j + 3)]

/-- A plane of `rows` by `cols` samples: row by row from the top, each row from the left (R123). -/
def plane (rows cols : Nat) (sample : Nat → Nat → Byte) : List Byte :=
  (List.range rows).flatMap fun i => (List.range cols).map fun j => sample i j

/-- YPLANE, the same in every mode (R123). -/
def yPlane (w h : Nat) (px : Nat → Nat → Pixel) : List Byte := plane h w fun i j => luma (px i j)

/-- The pixels of the block that feeds chroma sample (i, j) (R124 to R128). -/
def blockPixels (m : Mode) (px : Nat → Nat → Pixel) (i j : Nat) : List Pixel := (m.block i j).map fun c => px c.1 c.2

/-- CBPLANE of the mode (R124 to R128). -/
def cbPlane (m : Mode) (w h : Nat) (px : Nat → Nat → Pixel) : List Byte :=
  plane (h / m.vy) (w / m.hx) fun i j => chromaBlueAvg (blockPixels m px i j)

/-- CRPLANE of the mode (R124 to R128). -/
def crPlane (m : Mode) (w h : Nat) (px : Nat → Nat → Pixel) : List Byte :=
  plane (h / m.vy) (w / m.hx) fun i j => chromaRedAvg (blockPixels m px i j)

/-- `FS(mode, w, h)`, the number of plane bytes in a frame (R129). -/
def frameSize (m : Mode) (w h : Nat) : Nat := w * h + 2 * (w / m.hx) * (h / m.vy)

/-- MARKER, `FRAME\n` (43_y4m_framer R148). -/
def marker : List Byte := [0x46#8, 0x52#8, 0x41#8, 0x4D#8, 0x45#8, 0x0A#8]

/-- `PLANES(mode) = YPLANE ++ CBPLANE ++ CRPLANE` (R130). -/
def planes (m : Mode) (w h : Nat) (px : Nat → Nat → Pixel) : List Byte :=
  yPlane w h px ++ cbPlane m w h px ++ crPlane m w h px

/-- `FRAMEBYTES(mode)`: the marker, then the planes (R130). -/
def frameBytes (m : Mode) (w h : Nat) (px : Nat → Nat → Pixel) : List Byte := marker ++ planes m w h px

end Sys2Proof.Machine
end

