-- ==== Sys2Proof/Machine/Framer.lean ====
section
/-! DEFINITION. The Y4M framer: decimal text, tags, the validity checks and the header line (43_y4m_framer R141 to R147). -/

namespace Sys2Proof.Machine

/-- The digits of `n` in base ten, at most `fuel` of them (43_y4m_framer R141). -/
def decDigits : Nat → Nat → List Byte
  | 0, _ => []
  | fuel + 1, n =>
    if n < 10 then [BitVec.ofNat 8 (0x30 + n)]
    else decDigits fuel (n / 10) ++ [BitVec.ofNat 8 (0x30 + n % 10)]

/-- `dec(n)`: the decimal text of `n`, most significant digit first (R141). A number of `b` bits has at most `b` digits. -/
def dec (n : Nat) : List Byte := decDigits (n.log2 + 1) n

/-- `TAG(mode)`: `C444`, `C422`, `C420`, `C411`, `C410` (R142). -/
def Mode.tag : Mode → List Byte
  | .c444 => [0x43#8, 0x34#8, 0x34#8, 0x34#8]
  | .c422 => [0x43#8, 0x34#8, 0x32#8, 0x32#8]
  | .c420 => [0x43#8, 0x34#8, 0x32#8, 0x30#8]
  | .c411 => [0x43#8, 0x34#8, 0x31#8, 0x31#8]
  | .c410 => [0x43#8, 0x34#8, 0x31#8, 0x30#8]

/-- The interlacing flags `p`, `t`, `b`, `m` (R145). -/
def interlaceFlags : List Byte := [0x70#8, 0x74#8, 0x62#8, 0x6D#8]

/-- A rate or aspect component read as two's complement is positive (10_state R28, R29). -/
def positive (v : Word) : Bool := decide (0 < v.toInt)

/-- HDRBAD (R143). The clause on the mode code has no case here: a `Mode` is one of the five; the codes above 4 fail before
(44_session_commands R172 step 1). -/
def headerBad (w h : Nat) (s : State) : Bool :=
  decide (w = 0) || decide (h = 0)
    || !positive s.frn || !positive s.frd || !positive s.parn || !positive s.pard
    || !interlaceFlags.contains s.il

/-- The bytes `EXT[0]` to `EXT[EXTLEN-1]`. -/
def State.extBytes (s : State) : List Byte := (List.range s.extlen.toNat).map fun i => s.extAt i

/-- EXTOK: 1 to 200 bytes, each 0x21 to 0x7E (R144). The bytes are looked at only when the length is good (20_memory R55). -/
def State.extOk (s : State) : Bool :=
  decide (1 ≤ s.extlen.toNat) && decide (s.extlen.toNat ≤ Config.extMax)
    && s.extBytes.all fun c => decide (0x21 ≤ c.toNat) && decide (c.toNat ≤ 0x7E)

/-- `YUV4MPEG2` -/
def magic : List Byte := [0x59#8, 0x55#8, 0x56#8, 0x34#8, 0x4D#8, 0x50#8, 0x45#8, 0x47#8, 0x32#8]

/-- A space, then one letter: the start of a header field. -/
def fieldStart (letter : Byte) : List Byte := [0x20#8, letter]

/-- ` X` and the extension when EXTOK, else nothing (R144, R146). -/
def State.extField (s : State) : List Byte := if s.extOk then fieldStart 0x58#8 ++ s.extBytes else []

/-- HEADER, from the registers as they stand (R146). -/
def header (s : State) : List Byte :=
  magic
    ++ fieldStart 0x57#8 ++ dec s.ew.toNat
    ++ fieldStart 0x48#8 ++ dec s.eh.toNat
    ++ fieldStart 0x46#8 ++ dec s.frn.toNat ++ [0x3A#8] ++ dec s.frd.toNat
    ++ fieldStart 0x49#8 ++ [s.il]
    ++ fieldStart 0x41#8 ++ dec s.parn.toNat ++ [0x3A#8] ++ dec s.pard.toNat
    ++ [0x20#8] ++ s.mode.tag
    ++ s.extField
    ++ [0x0A#8]

/-- The picture in the pixel buffer as a frame of the session: the bytes FRAME emits (42_subsampler R130). -/
def State.frameBytes (s : State) : List Byte :=
  Sys2Proof.Machine.frameBytes s.mode s.ew.toNat s.eh.toNat s.px

end Sys2Proof.Machine
end

