-- ==== Sys2Proof/Machine/SessionCommands.lean ====
section
/-! DEFINITION. The session commands (44_session_commands R172 to R182): OPEN in its six rows, PIX, FRAME, CLOSE, ABORT. -/

namespace Sys2Proof.Machine

/-- OPEN's step 6: commit the mode and the dimensions, clear the progress, write WARN, STATE <- OPEN; it stands when the header then
fails with IoError (R172, 90_conflicts C8; log 17). -/
def State.startSession (m : Mode) (w h : Nat) (s : State) : State :=
  { s with
    mode := m
    ew := BitVec.ofNat 32 w
    eh := BitVec.ofNat 32 h
    wp := 0#32
    frames := 0#32
    bytes := 0#64
    warn := m.advisory
    session := .opened }

/-- OPEN for a mode, steps 2 to 8: crop, zero size, header validity, capacity, commit, emit the header, respond WARN (R172; the
order of the checks is 60_exceptions R205). -/
def openSession (m : Mode) (s : State) : Result :=
  let w := cropWidth m s.nw
  let h := cropHeight m s.nh
  if w = 0 ∨ h = 0 then .next (s.raise .zeroSizeOutput)
  else if headerBad w h s = true then .next (s.raise .containerHeader)
  else if s.pbCapacity < w * h then .next (s.raise .allocation)
  else
    let t := s.startSession m w h
    emit (header t) (fun u => .next (u.done u.warnWord)) t

/-- OPEN C444 (R173). -/
def execOpenC444 (s : State) : Result := whenIdle (openSession .c444) s

/-- OPEN C422 (R174). -/
def execOpenC422 (s : State) : Result := whenIdle (openSession .c422) s

/-- OPEN C420 (R175). -/
def execOpenC420 (s : State) : Result := whenIdle (openSession .c420) s

/-- OPEN C411 (R176). -/
def execOpenC411 (s : State) : Result := whenIdle (openSession .c411) s

/-- OPEN C410 (R177): the advisory is WARN, written by `State.startSession`. -/
def execOpenC410 (s : State) : Result := whenIdle (openSession .c410) s

/-- OPEN with a code that names no colour space: step 1 of R172, ContainerHeaderError, whatever the code is (R178). -/
def execOpenBadmode (_m : Byte) (s : State) : Result := whenIdle (fun s => .next (s.raise .containerHeader)) s

/-- PIX's store: `PB[WP] <- p`, `WP <- WP + 1` (R179, 20_memory R53). -/
def State.pushPixel (p : Pixel) (s : State) : State :=
  { s with
    pb := Memory.write Memory.blankPixel s.wp.toNat p s.pb
    wp := s.wp + 1#32 }

/-- `x[EW] * x[EH]`, a natural number (R172, R179). -/
def State.pictureSize (s : State) : Nat := s.ew.toNat * s.eh.toNat

/-- PIX: load one pixel (R179). The stop is for an index PB does not have, which no run reaches (log 8). -/
def execPix (p : Pixel) (s : State) : Result :=
  whenOpened (fun s =>
    if s.wp.toNat = s.pictureSize then .next (s.raise .bufferOverrun)
    else if s.pbCapacity ≤ s.wp.toNat then .fault (.noSuchPixel s.wp.toNat)
    else .next (State.done 0#32 (s.pushPixel p))) s

/-- FRAME's last steps: `WP <- 0`, `FRAMES <- FRAMES + 1` modulo 2^32 (R180). -/
def State.finishFrame (s : State) : State := { s with wp := 0#32, frames := s.frames + 1#32 }

/-- FRAME: emit the marker and the three planes of the loaded picture (R180). FRAME reads PB[0] to PB[EW*EH-1]; the stop is for an
index PB does not have, which no run reaches (log 8). -/
def execFrame (s : State) : Result :=
  whenOpened (fun s =>
    if s.wp.toNat ≠ s.pictureSize then .next (s.raise .frameIncomplete)
    else if s.pbCapacity < s.pictureSize then .fault (.noSuchPixel s.pbCapacity)
    else emit s.frameBytes (fun u => .next (State.done 0#32 u.finishFrame)) s) s

/-- CLOSE: end the session; nothing is emitted and all registers but STATE keep their values (R181). -/
def execClose (s : State) : Result :=
  whenOpened (fun s =>
    if s.wp ≠ 0#32 then .next (s.raise .frameIncomplete)
    else .next (State.done 0#32 { s with session := .idle })) s

/-- ABORT: record an upstream error, codes 1 to 3; any other code is IllegalCommand (R182). -/
def execAbort (c : Byte) (s : State) : Result :=
  whenNotFailed (fun s =>
    match upstreamError c with
    | some e => .next (s.raise e)
    | none => .next (s.raise .illegalCommand)) s

end Sys2Proof.Machine
end

