-- ==== Sys2Proof/Syntax.lean ====
section
/-! DEFINITION. The commands of VGCSC as syntax: one constructor per row of spec/opcode_table.json (30_encoding R74: 17 commands,
22 rows, because OPEN has one row per mode and one for the invalid mode codes). -/

namespace Sys2Proof

/-- A decoded command with its operand, read per its form (30_encoding R73, R74). -/
inductive Instr where
  /-- `SETNW v` (44_session_commands R163) -/
  | setnw (v : Word)
  /-- `SETNH v` (R164) -/
  | setnh (v : Word)
  /-- `SETFRN v` (R165) -/
  | setfrn (v : Word)
  /-- `SETFRD v` (R166) -/
  | setfrd (v : Word)
  /-- `SETPARN v` (R167) -/
  | setparn (v : Word)
  /-- `SETPARD v` (R168) -/
  | setpard (v : Word)
  /-- `SETIL c` (R169) -/
  | setil (c : Byte)
  /-- `EXTCLR` (R170) -/
  | extclr
  /-- `EXTB c` (R171) -/
  | extb (c : Byte)
  /-- `OPEN C444` (R173) -/
  | openC444
  /-- `OPEN C422` (R174) -/
  | openC422
  /-- `OPEN C420` (R175) -/
  | openC420
  /-- `OPEN C411` (R176) -/
  | openC411
  /-- `OPEN C410` (R177) -/
  | openC410
  /-- `OPEN m` with a mode code 5 to 255 (R178) -/
  | openBadmode (m : Byte)
  /-- `PIX r, g, b` (R179) -/
  | pix (p : Pixel)
  /-- `FRAME` (R180) -/
  | frame
  /-- `CLOSE` (R181) -/
  | close
  /-- `ABORT c` (R182) -/
  | abort (c : Byte)
  /-- `RD k` (R183) -/
  | rd (k : Byte)
  /-- `CONV r, g, b` (R184) -/
  | conv (p : Pixel)
  /-- `RESET` (R185) -/
  | reset
deriving DecidableEq, Repr

end Sys2Proof
end

