-- ==== Sys2Proof/Machine/Dispatch.lean ====
section
/-! DEFINITION. One arm per command (30_encoding R74). -/

namespace Sys2Proof.Machine

/-- What a decoded command does (44_session_commands R160: "perform the rule of c", with the checks of the session state). -/
def exec (i : Instr) (s : State) : Host.Outcome State Fault Refusal :=
  match i with
  | .setnw v => Sys2Proof.Machine.execSetnw v s
  | .setnh v => Sys2Proof.Machine.execSetnh v s
  | .setfrn v => Sys2Proof.Machine.execSetfrn v s
  | .setfrd v => Sys2Proof.Machine.execSetfrd v s
  | .setparn v => Sys2Proof.Machine.execSetparn v s
  | .setpard v => Sys2Proof.Machine.execSetpard v s
  | .setil c => Sys2Proof.Machine.execSetil c s
  | .extclr => Sys2Proof.Machine.execExtclr s
  | .extb c => Sys2Proof.Machine.execExtb c s
  | .openC444 => Sys2Proof.Machine.execOpenC444 s
  | .openC422 => Sys2Proof.Machine.execOpenC422 s
  | .openC420 => Sys2Proof.Machine.execOpenC420 s
  | .openC411 => Sys2Proof.Machine.execOpenC411 s
  | .openC410 => Sys2Proof.Machine.execOpenC410 s
  | .openBadmode m => Sys2Proof.Machine.execOpenBadmode m s
  | .pix p => Sys2Proof.Machine.execPix p s
  | .frame => Sys2Proof.Machine.execFrame s
  | .close => Sys2Proof.Machine.execClose s
  | .abort c => Sys2Proof.Machine.execAbort c s
  | .rd k => Sys2Proof.Machine.execRd k s
  | .conv p => Sys2Proof.Machine.execConv p s
  | .reset => Sys2Proof.Machine.execReset s

end Sys2Proof.Machine
end

