-- ==== Sys2Proof/WellFormed.lean ====
section
/-! DEFINITION. Which terms of `Instr` are commands some word encodes (30_encoding R73, R77). The operand widths are in the
types; the one check left is that `OPEN.BADMODE` carries a code that names no colour space. -/

namespace Sys2Proof

/-- The command is one that a word decodes to: a BADMODE code is 5 to 255 (30_encoding R77), all else always holds. -/
def Instr.wellFormed : Instr → Bool
  | .setnw _ => true
  | .setnh _ => true
  | .setfrn _ => true
  | .setfrd _ => true
  | .setparn _ => true
  | .setpard _ => true
  | .setil _ => true
  | .extclr => true
  | .extb _ => true
  | .openC444 => true
  | .openC422 => true
  | .openC420 => true
  | .openC411 => true
  | .openC410 => true
  | .openBadmode m => decide (5 ≤ m.toNat)
  | .pix _ => true
  | .frame => true
  | .close => true
  | .abort _ => true
  | .rd _ => true
  | .conv _ => true
  | .reset => true

end Sys2Proof
end

