-- ==== Sys2Proof/Decode.lean ====
section
/-! DEFINITION. The decoder, total on every 40-bit word and rejecting by name (30_encoding R70 to R78), then the encoder, then
spec/opcode_table.json's rows as data. -/

namespace Sys2Proof

/-- `word[39:32]` (30_encoding R70). -/
def opOf (w : PortWord) : Byte := w.extractLsb' 32 8

/-- `word[31:0]` (30_encoding R70). -/
def argOf (w : PortWord) : Word := w.extractLsb' 0 32

/-- The seven operand forms (30_encoding R73). -/
inductive Form where
  | none
  | word
  | byte
  | pixel
  | mode
  | register
  | error
deriving DecidableEq, Repr

/-- The "must be 0" bits of each operand form (30_encoding R73). -/
def Form.reservedBits : Form → Word
  | .none => 0xFFFFFFFF#32
  | .word => 0x00000000#32
  | .byte => 0xFFFFFF00#32
  | .pixel => 0xFF000000#32
  | .mode => 0xFFFFFF00#32
  | .register => 0xFFFFFF00#32
  | .error => 0xFFFFFF00#32

/-- No reserved operand bit is set (30_encoding R76). -/
def Form.accepts (f : Form) (arg : Word) : Bool := arg &&& f.reservedBits == 0#32

/-- The operand of forms B, M, R and E: `arg[7:0]`. -/
def byteOperand (arg : Word) : Byte := arg.extractLsb' 0 8

/-- The operand of form P: `arg[23:16] = r`, `arg[15:8] = g`, `arg[7:0] = b` (20_memory R56). -/
def pixelOperand (arg : Word) : Pixel where
  r := arg.extractLsb' 16 8
  g := arg.extractLsb' 8 8
  b := arg.extractLsb' 0 8

/-- The OPEN rows, first match first: codes 0 to 4 name a colour space, every other code is `OPEN.BADMODE` (30_encoding R74, R77). -/
def openWithCode (m : Byte) : Instr :=
  match m with
  | 0x00#8 => .openC444
  | 0x01#8 => .openC422
  | 0x02#8 => .openC420
  | 0x03#8 => .openC411
  | 0x04#8 => .openC410
  | m => .openBadmode m

/-- The opcode map: the operand form of each assigned opcode and the command it makes of its operand (30_encoding R74); the
other opcodes are reserved (R75). -/
def operation (op : Byte) : Option (Form × (Word → Instr)) :=
  match op with
  | 0x10#8 => some (.word, fun arg => .setnw arg)
  | 0x11#8 => some (.word, fun arg => .setnh arg)
  | 0x12#8 => some (.word, fun arg => .setfrn arg)
  | 0x13#8 => some (.word, fun arg => .setfrd arg)
  | 0x14#8 => some (.word, fun arg => .setparn arg)
  | 0x15#8 => some (.word, fun arg => .setpard arg)
  | 0x16#8 => some (.byte, fun arg => .setil (byteOperand arg))
  | 0x17#8 => some (.none, fun _ => .extclr)
  | 0x18#8 => some (.byte, fun arg => .extb (byteOperand arg))
  | 0x20#8 => some (.mode, fun arg => openWithCode (byteOperand arg))
  | 0x21#8 => some (.pixel, fun arg => .pix (pixelOperand arg))
  | 0x22#8 => some (.none, fun _ => .frame)
  | 0x23#8 => some (.none, fun _ => .close)
  | 0x24#8 => some (.error, fun arg => .abort (byteOperand arg))
  | 0x30#8 => some (.register, fun arg => .rd (byteOperand arg))
  | 0x31#8 => some (.pixel, fun arg => .conv (pixelOperand arg))
  | 0x3F#8 => some (.none, fun _ => .reset)
  | _ => none

/-- Why a word is no command (30_encoding R75, R76). -/
inductive DecodeError where
  /-- The opcode is not one of the 17 (R75). -/
  | reservedOpcode (op : Byte)
  /-- The opcode is assigned, and a "must be 0" operand bit is set (R76). -/
  | reservedOperandBits (op : Byte) (arg : Word)
deriving DecidableEq, Repr

/-- The decoder (30_encoding R78): opcode first, then the reserved operand bits, then the operand per its form. -/
def decode (w : PortWord) : Except DecodeError Instr :=
  match operation (opOf w) with
  | none => .error (.reservedOpcode (opOf w))
  | some (form, make) =>
    if form.accepts (argOf w) then .ok (make (argOf w))
    else .error (.reservedOperandBits (opOf w) (argOf w))

/-- A command word from its two fields (30_encoding R70). -/
def commandWord (op : Byte) (arg : Word) : PortWord := op ++ arg

/-- A pixel operand packed as 0x00RRGGBB (20_memory R56). -/
def packPixel (p : Pixel) : Word := 0#8 ++ p.r ++ p.g ++ p.b

/-- The word of a well-formed command, written from 30_encoding R73, R74, R77. -/
def encode : Instr → PortWord
  | .setnw v => commandWord 0x10#8 v
  | .setnh v => commandWord 0x11#8 v
  | .setfrn v => commandWord 0x12#8 v
  | .setfrd v => commandWord 0x13#8 v
  | .setparn v => commandWord 0x14#8 v
  | .setpard v => commandWord 0x15#8 v
  | .setil c => commandWord 0x16#8 (c.setWidth 32)
  | .extclr => commandWord 0x17#8 0#32
  | .extb c => commandWord 0x18#8 (c.setWidth 32)
  | .openC444 => commandWord 0x20#8 0#32
  | .openC422 => commandWord 0x20#8 1#32
  | .openC420 => commandWord 0x20#8 2#32
  | .openC411 => commandWord 0x20#8 3#32
  | .openC410 => commandWord 0x20#8 4#32
  | .openBadmode m => commandWord 0x20#8 (m.setWidth 32)
  | .pix p => commandWord 0x21#8 (packPixel p)
  | .frame => commandWord 0x22#8 0#32
  | .close => commandWord 0x23#8 0#32
  | .abort c => commandWord 0x24#8 (c.setWidth 32)
  | .rd k => commandWord 0x30#8 (k.setWidth 32)
  | .conv p => commandWord 0x31#8 (packPixel p)
  | .reset => commandWord 0x3F#8 0#32

/-- The command read from a word numbered as spec/opcode_table.json numbers it: the table's rows are whole 40-bit words, bit 0
the least significant, and a command word is one unit without a byte order (20_memory R56; log 10). More than 40 bits is no
command word. -/
def decodeTableWord (nbits w : Nat) : Option Instr :=
  if nbits ≤ 40 ∧ w < 2 ^ 40 then
    match decode (BitVec.ofNat 40 w) with
    | .ok i => some i
    | .error _ => none
  else none

/-- A row of spec/opcode_table.json: a word matches when its `mask` bits are those of `pattern`. -/
structure OpcodeRow where
  mnemonic : String
  pattern : PortWord
  mask : PortWord
deriving DecidableEq, Repr

/-- The rows of spec/opcode_table.json in table order; the first match wins (30_encoding R74). -/
def opcodeTable : List OpcodeRow :=
  [ ⟨"SETNW", 0x1000000000#40, 0xFF00000000#40⟩,
    ⟨"SETNH", 0x1100000000#40, 0xFF00000000#40⟩,
    ⟨"SETFRN", 0x1200000000#40, 0xFF00000000#40⟩,
    ⟨"SETFRD", 0x1300000000#40, 0xFF00000000#40⟩,
    ⟨"SETPARN", 0x1400000000#40, 0xFF00000000#40⟩,
    ⟨"SETPARD", 0x1500000000#40, 0xFF00000000#40⟩,
    ⟨"SETIL", 0x1600000000#40, 0xFFFFFFFF00#40⟩,
    ⟨"EXTCLR", 0x1700000000#40, 0xFFFFFFFFFF#40⟩,
    ⟨"EXTB", 0x1800000000#40, 0xFFFFFFFF00#40⟩,
    ⟨"OPEN.C444", 0x2000000000#40, 0xFFFFFFFFFF#40⟩,
    ⟨"OPEN.C422", 0x2000000001#40, 0xFFFFFFFFFF#40⟩ ] ++
  [ ⟨"OPEN.C420", 0x2000000002#40, 0xFFFFFFFFFF#40⟩,
    ⟨"OPEN.C411", 0x2000000003#40, 0xFFFFFFFFFF#40⟩,
    ⟨"OPEN.C410", 0x2000000004#40, 0xFFFFFFFFFF#40⟩,
    ⟨"OPEN.BADMODE", 0x2000000000#40, 0xFFFFFFFF00#40⟩,
    ⟨"PIX", 0x2100000000#40, 0xFFFF000000#40⟩,
    ⟨"FRAME", 0x2200000000#40, 0xFFFFFFFFFF#40⟩,
    ⟨"CLOSE", 0x2300000000#40, 0xFFFFFFFFFF#40⟩,
    ⟨"ABORT", 0x2400000000#40, 0xFFFFFFFF00#40⟩,
    ⟨"RD", 0x3000000000#40, 0xFFFFFFFF00#40⟩,
    ⟨"CONV", 0x3100000000#40, 0xFFFF000000#40⟩,
    ⟨"RESET", 0x3F00000000#40, 0xFFFFFFFFFF#40⟩ ]

/-- The row matches the word. -/
def OpcodeRow.covers (row : OpcodeRow) (w : PortWord) : Bool := w &&& row.mask == row.pattern

/-- The mnemonic of the first matching row; none for an illegal word (30_encoding R74). -/
def tableMnemonic (w : PortWord) : Option String :=
  (opcodeTable.find? fun row => row.covers w).map fun row => row.mnemonic

/-- The mnemonic of a command's row (30_encoding R74). -/
def Instr.mnemonic : Instr → String
  | .setnw _ => "SETNW"
  | .setnh _ => "SETNH"
  | .setfrn _ => "SETFRN"
  | .setfrd _ => "SETFRD"
  | .setparn _ => "SETPARN"
  | .setpard _ => "SETPARD"
  | .setil _ => "SETIL"
  | .extclr => "EXTCLR"
  | .extb _ => "EXTB"
  | .openC444 => "OPEN.C444"
  | .openC422 => "OPEN.C422"
  | .openC420 => "OPEN.C420"
  | .openC411 => "OPEN.C411"
  | .openC410 => "OPEN.C410"
  | .openBadmode _ => "OPEN.BADMODE"
  | .pix _ => "PIX"
  | .frame => "FRAME"
  | .close => "CLOSE"
  | .abort _ => "ABORT"
  | .rd _ => "RD"
  | .conv _ => "CONV"
  | .reset => "RESET"

end Sys2Proof
end

