-- ==== Sys2Proof/Machine/Port.lean ====
section
/-! DEFINITION. The command port: taking the next event of the host (20_memory R60, 30_encoding R70, 70_reset_and_hazards R230).
The events are inputs of the step (00_scope section 8), held in State as a list (log 1); the block itself queues none (R236). -/

namespace Sys2Proof.Machine

/-- What the port gives the next step, and the state with that event taken. -/
inductive PortInput where
  /-- No event has arrived: the block waits (60_exceptions R221, 70_reset_and_hazards R232). -/
  | waiting
  /-- The reset input (R230). -/
  | hardwareReset (s : State)
  /-- A word that decodes to a command (30_encoding R78). -/
  | command (i : Instr) (s : State)
  /-- An illegal word, by its opcode (30_encoding R75, R76). -/
  | illegal (op : Byte) (s : State)
deriving DecidableEq, Repr

/-- Take the next event. -/
def State.takeInput (s : State) : PortInput :=
  match s.port with
  | [] => .waiting
  | .hardwareReset :: rest => .hardwareReset { s with port := rest }
  | .command w :: rest =>
    match decode w with
    | .ok i => .command i { s with port := rest }
    | .error _ => .illegal (opOf w) { s with port := rest }

/-- The hardware reset: the effect of RESET without a response (R230). -/
def State.hardwareReset (s : State) : State := s.toReset

/-- The state with a command word put before all events still to arrive, so that the next step takes it. -/
def State.offerWord (s : State) (w : Nat) : State :=
  { s with port := .command (BitVec.ofNat 40 w) :: s.port }

end Sys2Proof.Machine
end

