-- ==== Sys2Proof/Machine/Step.lean ====
section
/-! DEFINITION. One step: one event of the host, performed completely (44_session_commands R160, 20_memory R60). -/

namespace Sys2Proof.Machine

/-- One step (44_session_commands R160); with no event the block waits and nothing changes (log 1). -/
def step (s : State) : Host.Outcome State Fault Refusal :=
  match s.takeInput with
  | .waiting => .next s
  | .hardwareReset t => .next t.hardwareReset
  | .command i t => exec i t
  | .illegal op t => .next (t.rejectIllegal op)

/-- The state in which the next step takes the command word `w` (a word is one unit of 40 bits, so `nbits`, 40 in every row of the
opcode table, lays nothing out; log 10). -/
def State.withFetchWord (s : State) (_nbits w : Nat) : State := s.offerWord w

end Sys2Proof.Machine
end

