-- ==== Sys2Proof/Machine/Assembler.lean ====
section
/-! DEFINITION. The spec's notation for command sequences: one command a line (30_encoding R79) and the pseudo-commands with their
expansions (R80). It is no part of the block, which sees only command words. Conventions R79 leaves open: log 14. -/

namespace Sys2Proof.Machine

/-- The pseudo-commands (30_encoding R80). -/
inductive Pseudo where
  | setdim (w h : Word)
  | setrate (n d : Word)
  | setpar (n d : Word)
  | ext (chars : List Byte)
  | pixels (ps : List Pixel)
deriving DecidableEq, Repr

/-- The commands a pseudo-command stands for (R80). -/
def Pseudo.expand : Pseudo → List Instr
  | .setdim w h => [.setnw w, .setnh h]
  | .setrate n d => [.setfrn n, .setfrd d]
  | .setpar n d => [.setparn n, .setpard d]
  | .ext chars => .extclr :: chars.map fun c => .extb c
  | .pixels ps => ps.map fun p => .pix p

/-- Space or tab. -/
def isBlankChar (c : Char) : Bool := c == ' ' || c == '\t'

/-- The text without blanks at its two ends. -/
def trimText (cs : List Char) : List Char := ((cs.dropWhile isBlankChar).reverse.dropWhile isBlankChar).reverse

/-- The line without its comment: text after `#`, where the `#` stands in no quoted character or string (R79; log 14). -/
def dropComment : Bool → List Char → List Char
  | _, [] => []
  | true, c :: cs => c :: dropComment (c != '"') cs
  | false, '\'' :: c :: '\'' :: cs => '\'' :: c :: '\'' :: dropComment false cs
  | false, c :: cs => if c == '#' then [] else c :: dropComment (c == '"') cs

/-- A decimal digit's value. -/
def decimalDigit (c : Char) : Option Nat :=
  if '0'.toNat ≤ c.toNat ∧ c.toNat ≤ '9'.toNat then some (c.toNat - '0'.toNat) else none

/-- A hexadecimal digit's value, either case. -/
def hexDigit (c : Char) : Option Nat :=
  if 'A'.toNat ≤ c.toNat ∧ c.toNat ≤ 'F'.toNat then some (c.toNat - 'A'.toNat + 10)
  else if 'a'.toNat ≤ c.toNat ∧ c.toNat ≤ 'f'.toNat then some (c.toNat - 'a'.toNat + 10)
  else decimalDigit c

/-- The number a run of digits stands for, after the digits already read. -/
def digitsValue (base : Nat) (digit : Char → Option Nat) : Nat → List Char → Option Nat
  | acc, [] => some acc
  | acc, c :: cs =>
    match digit c with
    | some d => digitsValue base digit (acc * base + d) cs
    | none => none

/-- A decimal number. -/
def decimalText : List Char → Option Nat
  | [] => none
  | cs => digitsValue 10 decimalDigit 0 cs

/-- A decimal or `0x` hexadecimal number. -/
def numberText : List Char → Option Nat
  | ['0', 'x'] => none
  | '0' :: 'x' :: cs => digitsValue 16 hexDigit 0 cs
  | cs => decimalText cs

/-- A W operand: 0 to 2^32-1, or a negative decimal `-n`, which stands for 2^32 - n (R79). -/
def wordText : List Char → Option Word
  | '-' :: cs => (decimalText cs).bind fun n => if 1 ≤ n ∧ n < 2 ^ 32 then some (BitVec.ofNat 32 (2 ^ 32 - n)) else none
  | cs => (numberText cs).bind fun n => if n < 2 ^ 32 then some (BitVec.ofNat 32 n) else none

/-- A number 0 to 255. -/
def byteNumberText (cs : List Char) : Option Byte :=
  (numberText cs).bind fun n => if n < 256 then some (BitVec.ofNat 8 n) else none

/-- The byte of an ASCII character (00_scope R9). -/
def asciiByte (c : Char) : Option Byte := if c.toNat < 128 then some (BitVec.ofNat 8 c.toNat) else none

/-- A B operand: a number 0 to 255, or a character in single quotes (R79). -/
def byteText : List Char → Option Byte
  | ['\'', c, '\''] => asciiByte c
  | cs => byteNumberText cs

/-- The text cut at its commas, each piece without outer blanks. -/
def commaPieces (cs : List Char) : List (List Char) := (cs.splitOn ',').map trimText

/-- A P operand: three numbers 0 to 255 separated by commas (R79). -/
def pixelText (cs : List Char) : Option Pixel :=
  match (commaPieces cs).map byteNumberText with
  | [some r, some g, some b] => some ⟨r, g, b⟩
  | _ => none

/-- An M operand: a mode name or a number 0 to 255 (R79). -/
def modeText (cs : List Char) : Option Byte :=
  if cs = "C444".toList then some Mode.c444.code
  else if cs = "C422".toList then some Mode.c422.code
  else if cs = "C420".toList then some Mode.c420.code
  else if cs = "C411".toList then some Mode.c411.code
  else if cs = "C410".toList then some Mode.c410.code
  else byteNumberText cs

/-- The register names in the order of their RD indices 0x00 to 0x10 (10_state R24). -/
def registerNames : List (List Char) :=
  ["STATUS".toList, "ERR".toList, "NW".toList, "NH".toList, "FRN".toList, "FRD".toList, "PARN".toList, "PARD".toList, "IL".toList]
    ++ ["MODE".toList, "EW".toList, "EH".toList, "WP".toList, "FRAMES".toList, "BYTESLO".toList, "BYTESHI".toList,
        "EXTLEN".toList]

/-- An R operand: a register name or a number (R79). -/
def registerText (cs : List Char) : Option Byte :=
  match registerNames.findIdx? fun name => name == cs with
  | some k => some (BitVec.ofNat 8 k)
  | none => byteNumberText cs

/-- An E operand: one of the three upstream error names, or a number (R79). -/
def errorText (cs : List Char) : Option Byte :=
  if cs = "OpenError".toList then some ErrorCode.openError.code
  else if cs = "FormatError".toList then some ErrorCode.formatError.code
  else if cs = "DimensionMismatchError".toList then some ErrorCode.dimensionMismatch.code
  else byteNumberText cs

/-- The command of a mnemonic and its operand's text (R74, R79). -/
def assembleCommand (mnemonic operand : List Char) : Option Instr :=
  if mnemonic = "SETNW".toList then (wordText operand).map fun v => .setnw v
  else if mnemonic = "SETNH".toList then (wordText operand).map fun v => .setnh v
  else if mnemonic = "SETFRN".toList then (wordText operand).map fun v => .setfrn v
  else if mnemonic = "SETFRD".toList then (wordText operand).map fun v => .setfrd v
  else if mnemonic = "SETPARN".toList then (wordText operand).map fun v => .setparn v
  else if mnemonic = "SETPARD".toList then (wordText operand).map fun v => .setpard v
  else if mnemonic = "SETIL".toList then (byteText operand).map fun c => .setil c
  else if mnemonic = "EXTB".toList then (byteText operand).map fun c => .extb c
  else if mnemonic = "OPEN".toList then (modeText operand).map openWithCode
  else if mnemonic = "PIX".toList then (pixelText operand).map fun p => .pix p
  else if mnemonic = "ABORT".toList then (errorText operand).map fun c => .abort c
  else if mnemonic = "RD".toList then (registerText operand).map fun k => .rd k
  else if mnemonic = "CONV".toList then (pixelText operand).map fun p => .conv p
  else if operand ≠ [] then none
  else if mnemonic = "EXTCLR".toList then some .extclr
  else if mnemonic = "FRAME".toList then some .frame
  else if mnemonic = "CLOSE".toList then some .close
  else if mnemonic = "RESET".toList then some .reset
  else none

/-- Two W operands separated by a comma. -/
def wordPairText (cs : List Char) : Option (Word × Word) :=
  match (commaPieces cs).map wordText with
  | [some a, some b] => some (a, b)
  | _ => none

/-- The bytes of a string in double quotes; the string itself holds none (R80; log 14). -/
def stringText (cs : List Char) : Option (List Byte) :=
  match cs with
  | '"' :: rest =>
    match rest.reverse with
    | '"' :: body => if body.contains '"' then none else body.reverse.mapM asciiByte
    | _ => none
  | _ => none

/-- The pixels of `(r,g,b) (r,g,b) ...`; the second argument is the text read since an open parenthesis, last character first. -/
def pixelsText : List Char → Option (List Char) → Option (List Pixel)
  | [], none => some []
  | [], some _ => none
  | c :: cs, none =>
    if c = '(' then pixelsText cs (some []) else if isBlankChar c then pixelsText cs none else none
  | c :: cs, some inside =>
    if c = ')' then
      match pixelText inside.reverse, pixelsText cs none with
      | some p, some ps => some (p :: ps)
      | _, _ => none
    else pixelsText cs (some (c :: inside))

/-- The pseudo-command of a name and its operand's text (R80). -/
def assemblePseudo (name operand : List Char) : Option Pseudo :=
  if name = "SETDIM".toList then (wordPairText operand).map fun p => .setdim p.1 p.2
  else if name = "SETRATE".toList then (wordPairText operand).map fun p => .setrate p.1 p.2
  else if name = "SETPAR".toList then (wordPairText operand).map fun p => .setpar p.1 p.2
  else if name = "EXT".toList then (stringText operand).map fun cs => .ext cs
  else if name = "PIXELS".toList then (pixelsText operand none).map fun ps => .pixels ps
  else none

/-- The commands of one line: none where it is not of the notation, the empty list for a blank or comment line (R79, R80). -/
def assembleLine (line : String) : Option (List Instr) :=
  let text := trimText (dropComment false line.toList)
  let name := text.takeWhile fun c => !isBlankChar c
  let operand := trimText (text.dropWhile fun c => !isBlankChar c)
  if text = [] then some []
  else
    match assembleCommand name operand with
    | some i => some [i]
    | none => (assemblePseudo name operand).map Pseudo.expand

/-- The command words of some lines, in order. -/
def assemble (lines : List String) : Option (List PortWord) :=
  (lines.mapM assembleLine).map fun parts => parts.flatten.map encode

end Sys2Proof.Machine
end

