-- ==== Sys2Proof/Safety.lean ====
section
/-! DEFINITION. What counts as a good state and a good run: the invariant of the machine (10_state R31 to R36, 42_subsampler R122),
the command sequence of a session (70_reset_and_hazards R235), the host's duties as to pixels (R238), and the stream a session owes
(43_y4m_framer R149, 00_scope R10). -/

namespace Sys2Proof.Machine

/-- The invariant: what holds in every state a run reaches. -/
structure Inv (s : State) : Prop where
  /-- PB_CAPACITY is in its range (00_scope R6). -/
  capacity : 1 ≤ s.pbCapacity ∧ s.pbCapacity < 2 ^ 32
  /-- EXT is in canonical form within its 200 bytes (10_state R36). -/
  extForm : Memory.wf Memory.blankByte Config.extMax s.ext = true
  /-- PB is in canonical form within its PB_CAPACITY pixels (20_memory R52). -/
  pbForm : Memory.wf Memory.blankPixel s.pbCapacity s.pb = true
  /-- EXTLEN holds 0 to 201 (10_state R36). -/
  extLength : s.extlen.toNat ≤ 201
  /-- ERR is 0 exactly when no fault was taken since reset, that is outside FAILED (10_state R26, 60_exceptions R214). -/
  faultShown : s.err = none ↔ s.session ≠ .failed
  /-- WARN says whether the last opened mode is C410 (10_state R37). -/
  advisory : s.warn = s.mode.advisory
  /-- EW is a multiple of HX (42_subsampler R122). -/
  widthCropped : s.ew.toNat % s.mode.hx = 0
  /-- EH is a multiple of VY (R122). -/
  heightCropped : s.eh.toNat % s.mode.vy = 0
  /-- The picture fits PB (10_state R32). -/
  fits : s.pictureSize ≤ s.pbCapacity
  /-- No more pixels are loaded than the picture has (10_state R33). -/
  loaded : s.wp.toNat ≤ s.pictureSize
  /-- Outside a session no pixel is loaded (44_session_commands R181). -/
  idleEmpty : s.session = .idle → s.wp = 0#32
  /-- In a session the picture is not empty (10_state R32, 42_subsampler R122). -/
  nonEmpty : s.session = .opened → 1 ≤ s.ew.toNat ∧ 1 ≤ s.eh.toNat
  /-- In a session the header's values stay valid (10_state R45, 43_y4m_framer R143). -/
  headerGood : s.session = .opened → headerBad s.ew.toNat s.eh.toNat s = false
  /-- In a session EW and EH are the crop of NW and NH for the mode (10_state R32). -/
  cropped : s.session = .opened → s.ew.toNat = cropWidth s.mode s.nw ∧ s.eh.toNat = cropHeight s.mode s.nh

/-- OPEN's checks all pass for this mode (44_session_commands R172 steps 2 to 5). -/
def State.canOpen (s : State) (m : Mode) : Prop :=
  cropWidth m s.nw ≠ 0 ∧ cropHeight m s.nh ≠ 0
    ∧ headerBad (cropWidth m s.nw) (cropHeight m s.nh) s = false
    ∧ cropWidth m s.nw * cropHeight m s.nh ≤ s.pbCapacity

/-- `OPEN` for a mode (44_session_commands R173 to R177). -/
def openInstr : Mode → Instr
  | .c444 => .openC444
  | .c422 => .openC422
  | .c420 => .openC420
  | .c411 => .openC411
  | .c410 => .openC410

/-- The commands of one frame: its pixels in order, then FRAME (70_reset_and_hazards R235). -/
def frameCommands (pixels : List Pixel) : List Instr := pixels.map (fun p => .pix p) ++ [.frame]

/-- The commands of one session after its configuration: OPEN, the frames, CLOSE (R235). -/
def sessionCommands (m : Mode) (frames : List (List Pixel)) : List Instr :=
  [openInstr m] ++ frames.flatMap frameCommands ++ [.close]

/-- Some commands as the events the port brings. -/
def commandEvents (is : List Instr) : List PortEvent := is.map fun i => .command (encode i)

/-- The pixels a host pushes for a native picture: the leftmost `w` of each of the top `h` rows, row by row (R238). -/
def suppliedPixels (native : Nat → Nat → Pixel) (w h : Nat) : List Pixel :=
  (List.range h).flatMap fun i => (List.range w).map fun j => native i j

/-- Some pushed pixels as a picture of width `w`: the k-th is at row `k div w`, column `k mod w` (R238, 44_session_commands R179). -/
def pictureOf (w : Nat) (pixels : List Pixel) (i j : Nat) : Pixel := pixels.getD (i * w + j) Memory.blankPixel

/-- The frames of a session's stream: the bytes of each pushed picture in order (43_y4m_framer R149). -/
def framesStream (m : Mode) (w h : Nat) (frames : List (List Pixel)) : List Byte :=
  frames.flatMap fun pixels => frameBytes m w h (pictureOf w pixels)

/-- The state after one more response word, all else as it was (30_encoding R72). -/
def State.answered (s : State) (response : PortWord) : State := { s with responses := s.responses ++ [response] }

/-- The state after a fault that changed nothing else: ERR, STATE and the response (60_exceptions R210). -/
def State.faulted (s : State) (c : ErrorCode) (response : PortWord) : State :=
  { s with session := .failed, err := some c, responses := s.responses ++ [response] }

/-- The state in which the environment has given the events of `rest` and no others yet. -/
def State.withPort (s : State) (rest : List PortEvent) : State := { s with port := rest }

/-- In IDLE and OPEN the word raises IllegalCommand, whatever else the state holds (30_encoding R75, R76). -/
def IllegalOutsideFailed (w : PortWord) : Prop :=
  ∀ (s : State) (rest : List PortEvent), s.port = .command w :: rest → s.session ≠ .failed →
    step s = .next ((s.withPort rest).faulted .illegalCommand 0x0800000000#40)

/-- The command is legal in IDLE only: SequenceError in OPEN, refused in FAILED (44_session_commands R160, R161). -/
def LegalInIdleOnly (i : Instr) : Prop :=
  ∀ s : State, (s.session = .opened → exec i s = .next (s.faulted .sequence 0x0900000000#40))
    ∧ (s.session = .failed → exec i s = .next (s.answered 0x0C00000000#40))

/-- The command is legal in OPEN only: SequenceError in IDLE, refused in FAILED (44_session_commands R160, R161). -/
def LegalInOpenOnly (i : Instr) : Prop :=
  ∀ s : State, (s.session = .idle → exec i s = .next (s.faulted .sequence 0x0900000000#40))
    ∧ (s.session = .failed → exec i s = .next (s.answered 0x0C00000000#40))

/-- The header values other than the dimensions are valid: rates and aspect positive as two's complement, the flag one of `p`, `t`,
`b`, `m` (43_y4m_framer R143, R145). -/
def State.headerValuesValid (s : State) : Prop :=
  0 < s.frn.toInt ∧ 0 < s.frd.toInt ∧ 0 < s.parn.toInt ∧ 0 < s.pard.toInt
    ∧ (s.il = 0x70#8 ∨ s.il = 0x74#8 ∨ s.il = 0x62#8 ∨ s.il = 0x6D#8)

/-- OPEN's commit for a mode and effective dimensions (44_session_commands R172 step 6). -/
def State.committed (s : State) (m : Mode) (w h : Nat) : State :=
  { s with
    mode := m, ew := BitVec.ofNat 32 w, eh := BitVec.ofNat 32 h, wp := 0#32, frames := 0#32, bytes := 0#64,
    warn := m.advisory, session := .opened }

/-- The values of the seventeen control registers in the order of their indices (10_state R24 to R36). -/
def State.registers (s : State) : List Word :=
  [ BitVec.ofNat 32 ((match s.session with | .idle => 0 | .opened => 1 | .failed => 2) + if s.warn then 4 else 0),
    (match s.err with | none => 0#32 | some c => BitVec.ofNat 32 c.code.toNat),
    s.nw, s.nh, s.frn, s.frd, s.parn, s.pard, BitVec.ofNat 32 s.il.toNat,
    BitVec.ofNat 32 (match s.mode with | .c444 => 0 | .c422 => 1 | .c420 => 2 | .c411 => 3 | .c410 => 4),
    s.ew, s.eh, s.wp, s.frames, BitVec.ofNat 32 s.bytes.toNat, BitVec.ofNat 32 (s.bytes.toNat / 2 ^ 32), s.extlen ]

/-- The faults a decoded command can raise (60_exceptions R206; ABORT's codes 1 to 3 by design). -/
def possibleFaults : Instr → List ErrorCode
  | .setnw _ => [.sequence]
  | .setnh _ => [.sequence]
  | .setfrn _ => [.sequence]
  | .setfrd _ => [.sequence]
  | .setparn _ => [.sequence]
  | .setpard _ => [.sequence]
  | .setil _ => [.sequence]
  | .extclr => [.sequence]
  | .extb _ => [.sequence]
  | .openC444 => [.zeroSizeOutput, .allocation, .io, .containerHeader, .sequence]
  | .openC422 => [.zeroSizeOutput, .allocation, .io, .containerHeader, .sequence]
  | .openC420 => [.zeroSizeOutput, .allocation, .io, .containerHeader, .sequence]
  | .openC411 => [.zeroSizeOutput, .allocation, .io, .containerHeader, .sequence]
  | .openC410 => [.zeroSizeOutput, .allocation, .io, .containerHeader, .sequence]
  | .openBadmode _ => [.containerHeader, .sequence]
  | .pix _ => [.sequence, .bufferOverrun]
  | .frame => [.io, .sequence, .frameIncomplete]
  | .close => [.sequence, .frameIncomplete]
  | .abort _ => [.openError, .formatError, .dimensionMismatch, .illegalCommand]
  | .rd _ => [.illegalCommand]
  | .conv _ => []
  | .reset => []

/-- The event the next step takes is one of the two resets (70_reset_and_hazards R230). -/
def State.nextIsReset (s : State) : Prop :=
  s.port.head? = some .hardwareReset ∨ s.port.head? = some (.command 0x3F00000000#40)

/-- The event the next step takes is the word of `i`. -/
def State.nextIs (s : State) (i : Instr) : Prop := s.port.head? = some (.command (encode i))

/-- Two states that differ at most in what is never read: pixels not loaded for the frame being assembled, and bytes of EXT at and
beyond EXTLEN (20_memory R54, 93_implementation_defined U1, U2). -/
structure SameButUnread (s t : State) : Prop where
  /-- All fields but the two memories are equal. -/
  fields : t = { s with pb := t.pb, ext := t.ext }
  /-- The loaded pixels are equal. -/
  pixels : ∀ i, i < s.wp.toNat → t.pixelAt i = s.pixelAt i
  /-- The pushed extension bytes are equal, as far as EXT holds them. -/
  extension : ∀ i, i < s.extlen.toNat → i < Config.extMax → t.extAt i = s.extAt i

end Sys2Proof.Machine
end

