-- ==== Sys2Proof/Certificates/Slice0/Obligations.lean ====
section
/-! DEFINITION. The statements for the provers: what spec/'s numbered rules say the block does. -/

open Sys2Proof Sys2Proof.Machine

/-! ### Encoding -/

/-- Words of 95_test_vectors section 2.1 decode to the commands beside them, and illegal words of the same section to the reasons. -/
def Obligations.SpecWordsDecode : Prop :=
  decode 0x1000000780#40 = .ok (.setnw 1920#32) ∧ decode 0x13000003E9#40 = .ok (.setfrd 1001#32)
    ∧ decode 0x150000000B#40 = .ok (.setpard 11#32) ∧ decode 0x1600000074#40 = .ok (.setil 0x74#8)
    ∧ decode 0x1700000000#40 = .ok .extclr ∧ decode 0x1800000061#40 = .ok (.extb 0x61#8)
    ∧ decode 0x2000000002#40 = .ok .openC420 ∧ decode 0x2000000009#40 = .ok (.openBadmode 9#8)
    ∧ decode 0x2100FF8040#40 = .ok (.pix ⟨255#8, 128#8, 64#8⟩) ∧ decode 0x2200000000#40 = .ok .frame
    ∧ decode 0x2400000003#40 = .ok (.abort 3#8) ∧ decode 0x300000000A#40 = .ok (.rd 0x0A#8)
    ∧ decode 0x31000A141E#40 = .ok (.conv ⟨10#8, 20#8, 30#8⟩) ∧ decode 0x3F00000000#40 = .ok .reset
    ∧ decode 0x1900000000#40 = .error (.reservedOpcode 0x19#8)
    ∧ decode 0x2000000100#40 = .error (.reservedOperandBits 0x20#8 0x100#32)
    ∧ decode 0x2101000000#40 = .error (.reservedOperandBits 0x21#8 0x01000000#32)

/-- Decoding an encoded well-formed command gives it back, with every operand (30_encoding R73, R74, R77). -/
def Obligations.EncodeThenDecode : Prop := ∀ i : Instr, i.wellFormed = true → decode (encode i) = .ok i

/-- Every word that decodes is the one encoding of the command it decodes to, which is well-formed (30_encoding R78). -/
def Obligations.DecodeThenEncode : Prop :=
  ∀ (w : PortWord) (i : Instr), decode w = .ok i → i.wellFormed = true ∧ encode i = w

/-- The decoder and the opcode table agree on every word: the first matching row, in table order, names the decoded command, and a
word that matches no row is illegal (30_encoding R74). -/
def Obligations.FirstTableRowDecides : Prop :=
  ∀ w : PortWord, tableMnemonic w = (match decode w with | .ok i => some i.mnemonic | .error _ => none)

/-- A word with a reserved opcode raises IllegalCommand in IDLE and OPEN and is refused with SessionFailed in FAILED (R75). -/
def Obligations.ReservedOpcodesAreIllegal : Prop :=
  ∀ (op : Byte) (arg : Word),
    (op.toNat ≤ 0x0F ∨ (0x19 ≤ op.toNat ∧ op.toNat ≤ 0x1F) ∨ (0x25 ≤ op.toNat ∧ op.toNat ≤ 0x2F)
      ∨ (0x32 ≤ op.toNat ∧ op.toNat ≤ 0x3E) ∨ 0x40 ≤ op.toNat) →
    IllegalOutsideFailed (op ++ arg)
      ∧ ∀ (s : State) (rest : List PortEvent), s.port = .command (op ++ arg) :: rest → s.session = .failed →
          step s = .next ((s.withPort rest).answered 0x0C00000000#40)

/-- A legal opcode with a reserved operand bit set raises IllegalCommand in IDLE and OPEN; in FAILED the response is 8 for RD and
RESET, 12 for the others, and nothing changes (R76, with R183 and R185 for the two). -/
def Obligations.ReservedOperandBitsAreIllegal : Prop :=
  ∀ (op : Byte) (arg : Word),
    ((op.toNat ∈ [0x16, 0x18, 0x20, 0x24, 0x30] ∧ 0x100 ≤ arg.toNat) ∨ (op.toNat ∈ [0x17, 0x22, 0x23, 0x3F] ∧ arg ≠ 0#32)
      ∨ (op.toNat ∈ [0x21, 0x31] ∧ 0x1000000 ≤ arg.toNat)) →
    IllegalOutsideFailed (op ++ arg)
      ∧ ∀ (s : State) (rest : List PortEvent), s.port = .command (op ++ arg) :: rest → s.session = .failed →
          step s = .next ((s.withPort rest).answered
            (if op = 0x30#8 ∨ op = 0x3F#8 then 0x0800000000#40 else 0x0C00000000#40))

/-! ### The step, reset and the fault state -/

/-- When the next word decodes to a command, the step performs it on the state with that word taken (44_session_commands R160). -/
def Obligations.StepRunsDecodedCommand : Prop :=
  ∀ (s : State) (w : PortWord) (rest : List PortEvent) (i : Instr),
    s.port = .command w :: rest → decode w = .ok i → step s = exec i (s.withPort rest)

/-- With no event the step changes nothing: the block waits (60_exceptions R221; that the wait is a step is log 1's choice). -/
def Obligations.StepWaitsForTheHost : Prop := ∀ s : State, s.port = [] → step s = .next s

/-- Both resets set every register to R42's value, emit nothing, and leave what the sink has; RESET responds 0x0000000000, the
hardware reset does not respond. What PB and EXT hold is left open (R230, R42, R231). -/
def Obligations.BothResetsGiveTheResetState : Prop :=
  ∀ s : State, ∃ (pb : List (Nat × Pixel)) (ext : List Host.Cell),
    (∀ rest : List PortEvent, s.port = .hardwareReset :: rest →
      step s = .next
        { session := .idle, warn := false, err := none, nw := 0#32, nh := 0#32, frn := 0#32, frd := 0#32, parn := 1#32,
          pard := 1#32, il := 0x70#8, mode := .c444, ew := 0#32, eh := 0#32, wp := 0#32, frames := 0#32, bytes := 0#64,
          extlen := 0#32, ext := ext, pb := pb, pbCapacity := s.pbCapacity, port := rest, sinkScript := s.sinkScript,
          sinkDraws := s.sinkDraws, out := s.out, responses := s.responses })
    ∧ exec .reset s = .next
        { session := .idle, warn := false, err := none, nw := 0#32, nh := 0#32, frn := 0#32, frd := 0#32, parn := 1#32,
          pard := 1#32, il := 0x70#8, mode := .c444, ew := 0#32, eh := 0#32, wp := 0#32, frames := 0#32, bytes := 0#64,
          extlen := 0#32, ext := ext, pb := pb, pbCapacity := s.pbCapacity, port := s.port, sinkScript := s.sinkScript,
          sinkDraws := s.sinkDraws, out := s.out, responses := s.responses ++ [0x0000000000#40] }

/-- The model's choice (log 7): a reset leaves PB and EXT as they were. -/
def Obligations.ResetKeepsTheBuffers : Prop :=
  ∀ s t : State, s.nextIsReset → step s = .next t → t.pb = s.pb ∧ t.ext = s.ext

/-- RESET: its word, its effect in every session state, a malformed RESET, and that no other command leaves FAILED or clears ERR
(R185). -/
def Obligations.ResetCommand : Prop :=
  decode 0x3F00000000#40 = .ok .reset
    ∧ (∀ s : State, ∃ t, exec .reset s = .next t ∧ t.registers = State.registers State.reset
        ∧ t.responses = s.responses ++ [0x0000000000#40] ∧ t.out = s.out)
    ∧ (∀ (i : Instr) (s t : State), exec i s = .next t →
        (s.session = .failed ∧ t.session ≠ .failed) ∨ (s.err ≠ none ∧ t.err = none) → i = .reset)
    ∧ ∀ arg : Word, arg ≠ 0#32 → IllegalOutsideFailed (0x3F#8 ++ arg)
        ∧ ∀ (s : State) (rest : List PortEvent), s.port = .command (0x3F#8 ++ arg) :: rest → s.session = .failed →
            step s = .next ((s.withPort rest).answered 0x0800000000#40)

/-- In FAILED every word but a well-formed RD or RESET has no effect but its response: 8 for a malformed RD or RESET, 12 for any other,
legal or not (R212). -/
def Obligations.FailedRefusesAllButRdAndReset : Prop :=
  ∀ (s : State) (w : PortWord) (rest : List PortEvent), s.session = .failed → s.port = .command w :: rest →
    (w.extractLsb' 32 8 ≠ 0x30#8 → w.extractLsb' 32 8 ≠ 0x3F#8 →
      step s = .next ((s.withPort rest).answered 0x0C00000000#40))
    ∧ (w.extractLsb' 32 8 = 0x30#8 → 0x10 < (w.extractLsb' 0 32).toNat →
      step s = .next ((s.withPort rest).answered 0x0800000000#40))
    ∧ (w.extractLsb' 32 8 = 0x3F#8 → w.extractLsb' 0 32 ≠ 0#32 →
      step s = .next ((s.withPort rest).answered 0x0800000000#40))

/-- The only way out of FAILED is the RESET command or the hardware reset, both to the reset values (R213), and ERR keeps the first
fault until then (R26, R214). -/
def Obligations.OnlyResetLeavesFailed : Prop :=
  ∀ s t : State, s.session = .failed → step s = .next t →
    (t.session = .failed ∧ t.err = s.err)
      ∨ (t.session = .idle ∧ t.err = none ∧ t.registers = State.registers State.reset ∧ s.nextIsReset)

/-- The session moves only as 10_state R22 says: IDLE to OPEN by OPEN, OPEN to IDLE by CLOSE, IDLE or OPEN to FAILED by a fault, any
state to IDLE by a reset. -/
def Obligations.SessionTransitions : Prop :=
  ∀ s t : State, step s = .next t →
    t.session = s.session
      ∨ (s.session = .idle ∧ t.session = .opened ∧ ∃ m : Mode, s.nextIs (openInstr m))
      ∨ (s.session = .opened ∧ t.session = .idle ∧ (s.nextIs .close ∨ s.nextIsReset))
      ∨ (s.session ≠ .failed ∧ t.session = .failed ∧ t.err ≠ none)
      ∨ (s.session = .failed ∧ t.session = .idle ∧ s.nextIsReset)

/-- Every command word gets exactly one response word, whose data is 0 whenever its error code is not (R72), and whose code is the one
ERR records when the command raised a fault (R210), 0 when a command was performed, and in FAILED 0, 8 or 12. -/
def Obligations.OneResponsePerCommand : Prop :=
  ∀ (s t : State) (w : PortWord) (rest : List PortEvent), s.port = .command w :: rest → step s = .next t →
    ∃ (err : Byte) (data : Word), t.responses = s.responses ++ [err ++ data] ∧ (err ≠ 0#8 → data = 0#32)
      ∧ (s.session ≠ .failed → t.session = .failed → ∃ c : ErrorCode, t.err = some c ∧ err = c.code)
      ∧ (s.session ≠ .failed → t.session ≠ .failed → err = 0#8)
      ∧ (s.session = .failed → err = 0#8 ∨ err = 8#8 ∨ err = 12#8)

/-- A fault other than IoError is precise: nothing has changed but ERR, STATE and the response. IoError comes from OPEN and FRAME only,
and what the sink had stays (R211). -/
def Obligations.FaultsArePrecise : Prop :=
  ∀ (s t : State) (rest : List PortEvent) (w : PortWord), s.port = .command w :: rest → s.session ≠ .failed →
    step s = .next t → t.session = .failed →
    (t.err ≠ some .io → ∃ c : ErrorCode, t = (s.withPort rest).faulted c (c.code ++ 0#32))
    ∧ (t.err = some .io → s.out <+: t.out ∧ (s.nextIs .frame ∨ ∃ m : Mode, s.nextIs (openInstr m)))

/-- Which command can raise which fault: a word that takes the block to FAILED records one of R206's row for its command, or
IllegalCommand if it is no command (R206). -/
def Obligations.FaultsPerCommand : Prop :=
  ∀ (s t : State) (w : PortWord) (rest : List PortEvent), s.port = .command w :: rest → s.session ≠ .failed →
    step s = .next t → t.session = .failed →
    ∃ c : ErrorCode, t.err = some c ∧ match decode w with
      | .ok i => c ∈ possibleFaults i
      | .error _ => c = .illegalCommand

/-! ### Configuration commands -/

/-- SETNW, SETNH, SETFRN, SETFRD, SETPARN, SETPARD: each writes its register with the operand as it stands, in IDLE only, and nothing
else; no value is rejected, and OPEN finds a zero dimension, then a component that is not positive (R163 to R168). -/
def Obligations.WordConfigurationCommands : Prop :=
  (∀ (s : State) (m : Mode), s.session = .idle →
    (s.nw = 0#32 ∨ s.nh = 0#32 → exec (openInstr m) s = .next (s.faulted .zeroSizeOutput 0x0400000000#40))
    ∧ (cropWidth m s.nw ≠ 0 → cropHeight m s.nh ≠ 0 →
        s.frn.toInt ≤ 0 ∨ s.frd.toInt ≤ 0 ∨ s.parn.toInt ≤ 0 ∨ s.pard.toInt ≤ 0 →
        exec (openInstr m) s = .next (s.faulted .containerHeader 0x0700000000#40)))
  ∧ ∀ v : Word,
    (decode (0x10#8 ++ v) = .ok (.setnw v) ∧ LegalInIdleOnly (.setnw v) ∧ ∀ s : State, s.session = .idle →
      exec (.setnw v) s = .next (State.answered { s with nw := v } 0x0000000000#40))
    ∧ (decode (0x11#8 ++ v) = .ok (.setnh v) ∧ LegalInIdleOnly (.setnh v) ∧ ∀ s : State, s.session = .idle →
      exec (.setnh v) s = .next (State.answered { s with nh := v } 0x0000000000#40))
    ∧ (decode (0x12#8 ++ v) = .ok (.setfrn v) ∧ LegalInIdleOnly (.setfrn v) ∧ ∀ s : State, s.session = .idle →
      exec (.setfrn v) s = .next (State.answered { s with frn := v } 0x0000000000#40))
    ∧ (decode (0x13#8 ++ v) = .ok (.setfrd v) ∧ LegalInIdleOnly (.setfrd v) ∧ ∀ s : State, s.session = .idle →
      exec (.setfrd v) s = .next (State.answered { s with frd := v } 0x0000000000#40))
    ∧ (decode (0x14#8 ++ v) = .ok (.setparn v) ∧ LegalInIdleOnly (.setparn v) ∧ ∀ s : State, s.session = .idle →
      exec (.setparn v) s = .next (State.answered { s with parn := v } 0x0000000000#40))
    ∧ (decode (0x15#8 ++ v) = .ok (.setpard v) ∧ LegalInIdleOnly (.setpard v) ∧ ∀ s : State, s.session = .idle →
      exec (.setpard v) s = .next (State.answered { s with pard := v } 0x0000000000#40))

/-- SETIL: any byte is stored in IL, in IDLE only; a word with `arg[31:8]` not 0 is illegal; OPEN finds a byte that is no flag; reset
leaves `p` (R169). -/
def Obligations.InterlaceFlagCommand : Prop :=
  (∀ c : Byte, decode (0x16#8 ++ (0#24 ++ c)) = .ok (.setil c) ∧ LegalInIdleOnly (.setil c)
    ∧ ∀ s : State, s.session = .idle →
        exec (.setil c) s = .next (State.answered { s with il := c } 0x0000000000#40))
    ∧ (∀ arg : Word, 0x100 ≤ arg.toNat → IllegalOutsideFailed (0x16#8 ++ arg))
    ∧ (∀ (s : State) (m : Mode), s.session = .idle → cropWidth m s.nw ≠ 0 → cropHeight m s.nh ≠ 0 →
        s.il ≠ 0x70#8 → s.il ≠ 0x74#8 → s.il ≠ 0x62#8 → s.il ≠ 0x6D#8 →
        exec (openInstr m) s = .next (s.faulted .containerHeader 0x0700000000#40))
    ∧ State.reset.il = 0x70#8

/-- EXTCLR: EXTLEN becomes 0 from any value, EXT's bytes are not erased (R170). -/
def Obligations.ExtensionClear : Prop :=
  decode (0x17#8 ++ 0#32) = .ok .extclr ∧ LegalInIdleOnly .extclr
    ∧ (∀ s : State, s.session = .idle →
        exec .extclr s = .next (State.answered { s with extlen := 0#32 } 0x0000000000#40))
    ∧ ∀ arg : Word, arg ≠ 0#32 → IllegalOutsideFailed (0x17#8 ++ arg)

/-- EXTB: below 200 the byte goes to EXT[EXTLEN], every other byte of EXT stays, and EXTLEN counts; from 200 on it is dropped and EXTLEN
is 201 (R171). -/
def Obligations.ExtensionPush : Prop :=
  (∀ c : Byte, decode (0x18#8 ++ (0#24 ++ c)) = .ok (.extb c) ∧ LegalInIdleOnly (.extb c)
    ∧ ∀ s : State, Inv s → s.session = .idle →
        (s.extlen.toNat < 200 → ∃ ext : List Host.Cell,
          exec (.extb c) s =
              .next (State.answered { s with ext := ext, extlen := BitVec.ofNat 32 (s.extlen.toNat + 1) } 0x0000000000#40)
            ∧ ∀ a : Nat, Memory.read Memory.blankByte ext a = if a = s.extlen.toNat then c else s.extAt a)
        ∧ (200 ≤ s.extlen.toNat →
          exec (.extb c) s = .next (State.answered { s with extlen := 201#32 } 0x0000000000#40)))
    ∧ ∀ arg : Word, 0x100 ≤ arg.toNat → IllegalOutsideFailed (0x18#8 ++ arg)

/-! ### OPEN -/

/-- OPEN: a code above 4 is ContainerHeaderError; for each mode code 0 to 4 the checks in their order, each leaving everything but STATE, ERR and the response as it was; then
the commit, the header to the sink, and the response with WARN, or IoError after the accepted prefix (R172). -/
def Obligations.OpenCommand : Prop :=
  (∀ (c : Byte) (s : State), 5 ≤ c.toNat → s.session = .idle →
    exec (.openBadmode c) s = .next (s.faulted .containerHeader 0x0700000000#40))
  ∧ ∀ m : Mode, LegalInIdleOnly (openInstr m)
    ∧ (∀ arg : Word, 0x100 ≤ arg.toNat → IllegalOutsideFailed (0x20#8 ++ arg))
    ∧ ∀ (s : State) (w h : Nat), s.session = .idle →
      w = s.nw.toNat - s.nw.toNat % m.hx → h = s.nh.toNat - s.nh.toNat % m.vy →
      (w = 0 ∨ h = 0 → exec (openInstr m) s = .next (s.faulted .zeroSizeOutput 0x0400000000#40))
      ∧ (w ≠ 0 → h ≠ 0 → ¬ s.headerValuesValid →
          exec (openInstr m) s = .next (s.faulted .containerHeader 0x0700000000#40))
      ∧ (w ≠ 0 → h ≠ 0 → s.headerValuesValid → s.pbCapacity < w * h →
          exec (openInstr m) s = .next (s.faulted .allocation 0x0500000000#40))
      ∧ (w ≠ 0 → h ≠ 0 → s.headerValuesValid → w * h ≤ s.pbCapacity →
          ∃ (n draws : Nat) (script : List SinkAnswer),
            n = s.sinkAnswer.accepted (header (s.committed m w h)).length
            ∧ (n = (header (s.committed m w h)).length →
                exec (openInstr m) s = .next (State.answered
                  { s.committed m w h with
                    out := s.out ++ header (s.committed m w h), bytes := BitVec.ofNat 64 n,
                    sinkScript := script, sinkDraws := draws }
                  (if m = .c410 then 0x0000000001#40 else 0x0000000000#40)))
            ∧ (n < (header (s.committed m w h)).length →
                exec (openInstr m) s = .next (State.faulted
                  { s.committed m w h with
                    out := s.out ++ (header (s.committed m w h)).take n, bytes := BitVec.ofNat 64 n,
                    sinkScript := script, sinkDraws := draws }
                  .io 0x0600000000#40)))

/-- What one row of OPEN says: the word, the crop to multiples of `hx` and `vy`, zero size exactly below them, the tag, WARN, frames of
6 + num * EW * EH / den bytes whose chroma sample (i, j) averages the pixels (row, column) of `block i j`, and, from a sink that takes
the header, an open session, ERR as it was and WARN in the response (44_session_commands R173 to R177). -/
def Sys2Proof.Machine.OpenRow (i : Instr) (word : PortWord) (m : Mode) (hx vy : Nat) (tag : List Byte) (warn : Bool)
    (num den : Nat) (block : Nat → Nat → List (Nat × Nat)) : Prop :=
  decode word = .ok i ∧ m.tag = tag
    ∧ ∀ s : State, s.session = .idle →
      (s.nw.toNat < hx ∨ s.nh.toNat < vy → exec i s = .next (s.faulted .zeroSizeOutput 0x0400000000#40))
      ∧ (hx ≤ s.nw.toNat → vy ≤ s.nh.toNat → s.headerValuesValid →
          (s.nw.toNat - s.nw.toNat % hx) * (s.nh.toNat - s.nh.toNat % vy) ≤ s.pbCapacity →
          ∃ t, exec i s = .next t ∧ t.mode = m ∧ t.warn = warn
            ∧ t.ew.toNat = s.nw.toNat - s.nw.toNat % hx ∧ t.eh.toNat = s.nh.toNat - s.nh.toNat % vy
            ∧ den * (t.frameBytes.length - 6) = num * (t.ew.toNat * t.eh.toNat)
            ∧ t.frameBytes = [0x46#8, 0x52#8, 0x41#8, 0x4D#8, 0x45#8, 0x0A#8] ++ yPlane t.ew.toNat t.eh.toNat t.px
                ++ plane (t.eh.toNat / vy) (t.ew.toNat / hx) (fun i j => chromaBlueAvg ((block i j).map fun c => t.px c.1 c.2))
                ++ plane (t.eh.toNat / vy) (t.ew.toNat / hx) (fun i j => chromaRedAvg ((block i j).map fun c => t.px c.1 c.2))
            ∧ (s.sinkAnswer = .takesAll → t.session = .opened ∧ t.err = s.err ∧ t.out = s.out ++ header t
                ∧ t.responses = s.responses ++ [if warn then 0x0000000001#40 else 0x0000000000#40]))

/-- The five rows of OPEN (R173 to R177). -/
def Obligations.OpenRowsPerMode : Prop :=
  OpenRow .openC444 0x2000000000#40 .c444 1 1 [0x43#8, 0x34#8, 0x34#8, 0x34#8] false 3 1 (fun i j => [(i, j)])
    ∧ OpenRow .openC422 0x2000000001#40 .c422 2 1 [0x43#8, 0x34#8, 0x32#8, 0x32#8] false 2 1
        (fun i j => [(i, 2 * j), (i, 2 * j + 1)])
    ∧ OpenRow .openC420 0x2000000002#40 .c420 2 2 [0x43#8, 0x34#8, 0x32#8, 0x30#8] false 3 2
        (fun i j => [(2 * i, 2 * j), (2 * i, 2 * j + 1), (2 * i + 1, 2 * j), (2 * i + 1, 2 * j + 1)])
    ∧ OpenRow .openC411 0x2000000003#40 .c411 4 1 [0x43#8, 0x34#8, 0x31#8, 0x31#8] false 3 2
        (fun i j => [(i, 4 * j), (i, 4 * j + 1), (i, 4 * j + 2), (i, 4 * j + 3)])
    ∧ OpenRow .openC410 0x2000000004#40 .c410 4 2 [0x43#8, 0x34#8, 0x31#8, 0x30#8] true 5 4
        (fun i j => [(2 * i, 4 * j), (2 * i, 4 * j + 1), (2 * i, 4 * j + 2), (2 * i, 4 * j + 3), (2 * i + 1, 4 * j),
          (2 * i + 1, 4 * j + 1), (2 * i + 1, 4 * j + 2), (2 * i + 1, 4 * j + 3)])

/-- OPEN with a code from 5 to 255 raises ContainerHeaderError before anything else is looked at (R178). -/
def Obligations.OpenBadModeCode : Prop :=
  ∀ m : Byte, 5 ≤ m.toNat → decode (0x20#8 ++ (0#24 ++ m)) = .ok (.openBadmode m) ∧ LegalInIdleOnly (.openBadmode m)
    ∧ ∀ s : State, s.session = .idle →
        exec (.openBadmode m) s = .next (s.faulted .containerHeader 0x0700000000#40)

/-! ### PIX, FRAME, CLOSE, ABORT -/

/-- PIX: the pixel goes to PB[WP], every other pixel stays, WP counts; with a complete picture BufferOverrun (R179). -/
def Obligations.PixelLoad : Prop :=
  (∀ r g b : Byte, decode (0x21#8 ++ (0#8 ++ r ++ g ++ b)) = .ok (.pix ⟨r, g, b⟩))
    ∧ (∀ arg : Word, 0x1000000 ≤ arg.toNat → IllegalOutsideFailed (0x21#8 ++ arg))
    ∧ ∀ p : Pixel, LegalInOpenOnly (.pix p)
      ∧ ∀ s : State, s.session = .opened →
        (s.wp.toNat = s.ew.toNat * s.eh.toNat → exec (.pix p) s = .next (s.faulted .bufferOverrun 0x0A00000000#40))
        ∧ (Inv s → s.wp.toNat ≠ s.ew.toNat * s.eh.toNat → ∃ pb : List (Nat × Pixel),
            exec (.pix p) s =
                .next (State.answered { s with pb := pb, wp := BitVec.ofNat 32 (s.wp.toNat + 1) } 0x0000000000#40)
              ∧ ∀ a : Nat, Memory.read Memory.blankPixel pb a = if a = s.wp.toNat then p else s.pixelAt a)

/-- FRAME: with a complete picture the marker and the planes of the session's mode go to the sink, WP becomes 0 and FRAMES counts modulo
2^32; IoError after the accepted prefix leaves WP and FRAMES; an incomplete picture is FrameIncomplete (R180). -/
def Obligations.FrameCommand : Prop :=
  decode (0x22#8 ++ 0#32) = .ok .frame ∧ LegalInOpenOnly .frame
    ∧ (∀ arg : Word, arg ≠ 0#32 → IllegalOutsideFailed (0x22#8 ++ arg))
    ∧ ∀ (s : State) (bytes : List Byte), s.session = .opened →
      bytes = frameBytes s.mode s.ew.toNat s.eh.toNat (fun i j => s.pixelAt (i * s.ew.toNat + j)) →
      (s.wp.toNat ≠ s.ew.toNat * s.eh.toNat → exec .frame s = .next (s.faulted .frameIncomplete 0x0B00000000#40))
      ∧ (Inv s → s.wp.toNat = s.ew.toNat * s.eh.toNat → ∃ (n draws : Nat) (script : List SinkAnswer),
          n = s.sinkAnswer.accepted bytes.length
          ∧ (n = bytes.length → exec .frame s = .next (State.answered
              { s with
                out := s.out ++ bytes, bytes := BitVec.ofNat 64 (s.bytes.toNat + n), wp := 0#32,
                frames := BitVec.ofNat 32 (s.frames.toNat + 1), sinkScript := script, sinkDraws := draws } 0x0000000000#40))
          ∧ (n < bytes.length → exec .frame s = .next (State.faulted
              { s with
                out := s.out ++ bytes.take n, bytes := BitVec.ofNat 64 (s.bytes.toNat + n), sinkScript := script,
                sinkDraws := draws } .io 0x0600000000#40)))

/-- The model's choice (log 8): where WP or the picture reaches beyond PB, PIX and FRAME stop. The invariant excludes both cases: the
picture fits PB, and while it is incomplete WP is an index of PB. -/
def Obligations.MissingPixelStops : Prop :=
  (∀ s : State, Inv s → s.ew.toNat * s.eh.toNat ≤ s.pbCapacity
    ∧ (s.wp.toNat ≠ s.ew.toNat * s.eh.toNat → s.wp.toNat < s.pbCapacity))
  ∧ ∀ (s : State) (p : Pixel), s.session = .opened →
    (s.wp.toNat ≠ s.ew.toNat * s.eh.toNat → s.pbCapacity ≤ s.wp.toNat → exec (.pix p) s = .fault (.noSuchPixel s.wp.toNat))
    ∧ (s.wp.toNat = s.ew.toNat * s.eh.toNat → s.pbCapacity < s.ew.toNat * s.eh.toNat →
        exec .frame s = .fault (.noSuchPixel s.pbCapacity))

/-- CLOSE: with no pixel loaded the session ends and all registers but STATE keep their values, nothing is emitted; else
FrameIncomplete (R181). -/
def Obligations.CloseCommand : Prop :=
  decode (0x23#8 ++ 0#32) = .ok .close ∧ LegalInOpenOnly .close
    ∧ (∀ arg : Word, arg ≠ 0#32 → IllegalOutsideFailed (0x23#8 ++ arg))
    ∧ ∀ s : State, s.session = .opened →
      (s.wp ≠ 0#32 → exec .close s = .next (s.faulted .frameIncomplete 0x0B00000000#40))
      ∧ (s.wp = 0#32 → exec .close s = .next (State.answered { s with session := .idle } 0x0000000000#40))

/-- ABORT: in IDLE and OPEN the codes 1, 2, 3 record the upstream error, every other code is IllegalCommand; refused in FAILED (R182). -/
def Obligations.AbortCommand : Prop :=
  (∀ c : Byte, decode (0x24#8 ++ (0#24 ++ c)) = .ok (.abort c))
    ∧ (∀ arg : Word, 0x100 ≤ arg.toNat → IllegalOutsideFailed (0x24#8 ++ arg))
    ∧ ∀ s : State, (s.session ≠ .failed →
        exec (.abort 1#8) s = .next (s.faulted .openError 0x0100000000#40)
        ∧ exec (.abort 2#8) s = .next (s.faulted .formatError 0x0200000000#40)
        ∧ exec (.abort 3#8) s = .next (s.faulted .dimensionMismatch 0x0300000000#40)
        ∧ ∀ c : Byte, c.toNat ≠ 1 → c.toNat ≠ 2 → c.toNat ≠ 3 →
            exec (.abort c) s = .next (s.faulted .illegalCommand 0x0800000000#40))
      ∧ (s.session = .failed → ∀ c : Byte, exec (.abort c) s = .next (s.answered 0x0C00000000#40))

/-! ### RD, CONV -/

/-- RD: in every session state an index up to 0x10 answers with that register and changes nothing; above it, or with `arg[31:8]` not 0,
IllegalCommand, in FAILED the response 8 without effect (R183, R44; the registers in the order of R24). -/
def Obligations.RegisterRead : Prop :=
  (∀ k : Byte, decode (0x30#8 ++ (0#24 ++ k)) = .ok (.rd k))
    ∧ (∀ arg : Word, 0x100 ≤ arg.toNat → IllegalOutsideFailed (0x30#8 ++ arg)
        ∧ ∀ (s : State) (rest : List PortEvent), s.port = .command (0x30#8 ++ arg) :: rest → s.session = .failed →
            step s = .next ((s.withPort rest).answered 0x0800000000#40))
    ∧ ∀ (s : State) (k : Byte),
      (k.toNat ≤ 0x10 → exec (.rd k) s = .next (s.answered (0x00#8 ++ s.registers.getD k.toNat 0#32)))
      ∧ (0x10 < k.toNat → s.session ≠ .failed →
          exec (.rd k) s = .next (s.faulted .illegalCommand 0x0800000000#40))
      ∧ (0x10 < k.toNat → s.session = .failed → exec (.rd k) s = .next (s.answered 0x0800000000#40))

/-- CONV: in IDLE and OPEN the response is `{0x00, Y, Cb, Cr}` of the pixel and nothing changes; refused in FAILED (R184). The three samples
by their formulas, and those of a grey (R103 to R105). -/
def Obligations.ConvertPixel : Prop :=
  (∀ r g b : Byte, decode (0x31#8 ++ (0#8 ++ r ++ g ++ b)) = .ok (.conv ⟨r, g, b⟩))
    ∧ (∀ arg : Word, 0x1000000 ≤ arg.toNat → IllegalOutsideFailed (0x31#8 ++ arg))
    ∧ (∀ r g b : Byte,
      luma ⟨r, g, b⟩ = BitVec.ofInt 8 ((299 * r.toNat + 587 * g.toNat + 114 * b.toNat + 500 : Int) / 1000)
      ∧ chromaBlue ⟨r, g, b⟩ = BitVec.ofInt 8 (min 255 ((128000 - 169 * r.toNat - 331 * g.toNat + 500 * b.toNat + 500 : Int) / 1000))
      ∧ chromaRed ⟨r, g, b⟩ = BitVec.ofInt 8 (min 255 ((128000 + 500 * r.toNat - 419 * g.toNat - 81 * b.toNat + 500 : Int) / 1000)))
    ∧ (∀ v : Byte, luma ⟨v, v, v⟩ = v ∧ chromaBlue ⟨v, v, v⟩ = 128#8 ∧ chromaRed ⟨v, v, v⟩ = 128#8)
    ∧ ∀ (s : State) (p : Pixel),
      (s.session ≠ .failed → exec (.conv p) s =
        .next (s.answered (0x00#8 ++ (0x00#8 ++ luma p ++ chromaBlue p ++ chromaRed p))))
      ∧ (s.session = .failed → exec (.conv p) s = .next (s.answered 0x0C00000000#40))

/-! ### Colour converter -/

/-- The bounds of the raw values, each reached at one pixel only, and the greys (R101). -/
def Obligations.RawValueBounds : Prop :=
  ∀ p : Pixel, (0 ≤ rawLuma p ∧ rawLuma p ≤ 255000 ∧ 500 ≤ rawBlue p ∧ rawBlue p ≤ 255500 ∧ 500 ≤ rawRed p ∧ rawRed p ≤ 255500)
    ∧ (rawLuma p = 0 ↔ p = ⟨0#8, 0#8, 0#8⟩) ∧ (rawLuma p = 255000 ↔ p = ⟨255#8, 255#8, 255#8⟩)
    ∧ (rawBlue p = 500 ↔ p = ⟨255#8, 255#8, 0#8⟩) ∧ (rawBlue p = 255500 ↔ p = ⟨0#8, 0#8, 255#8⟩)
    ∧ (rawRed p = 500 ↔ p = ⟨0#8, 255#8, 255#8⟩) ∧ (rawRed p = 255500 ↔ p = ⟨255#8, 0#8, 0#8⟩)
    ∧ ∀ v : Byte, rawLuma ⟨v, v, v⟩ = 1000 * v.toNat ∧ rawBlue ⟨v, v, v⟩ = 128000 ∧ rawRed ⟨v, v, v⟩ = 128000

/-- RND is round-half-up on the fractional part with the increment not applied at 255 (R102). -/
def Obligations.RoundHalfUpWithCap : Prop :=
  ∀ (sum k : Nat), k = 1 ∨ k = 2 ∨ k = 4 ∨ k = 8 → (rounded sum k).toNat ≤ 255
    ∧ (sum % (1000 * k) < 500 * k → (rounded sum k).toNat = min 255 (sum / (1000 * k)))
    ∧ (500 * k ≤ sum % (1000 * k) → (rounded sum k).toNat = min 255 (sum / (1000 * k) + 1))

/-- Where the cap acts: never for luma, for one pixel value per chroma, and for an average only when all its pixels are that value; and no
chroma sample is 0 (R112). -/
def Obligations.CapActsForOnePixelValue : Prop :=
  (∀ p : Pixel, (rawLuma p + 500) / 1000 ≤ 255)
    ∧ (∀ ps : List Pixel, ps.length = 1 ∨ ps.length = 2 ∨ ps.length = 4 ∨ ps.length = 8 →
        (255 < (rawSum rawBlue ps + 500 * ps.length) / (1000 * ps.length) ↔ ∀ p ∈ ps, p = ⟨0#8, 0#8, 255#8⟩)
        ∧ (255 < (rawSum rawRed ps + 500 * ps.length) / (1000 * ps.length) ↔ ∀ p ∈ ps, p = ⟨255#8, 0#8, 0#8⟩)
        ∧ 1 ≤ (chromaBlueAvg ps).toNat ∧ 1 ≤ (chromaRedAvg ps).toNat)

/-- An average of 2, 4 or 8 pixels is the sum of their raw values, rounded once (R106, R107): the cap acts only when all the pixels are
the capped one, greys give 128, the order of the pixels does not matter, equal pixels give the pointwise value, and it is not the
average of the samples (R108's two pairs). -/
def Obligations.AverageThenRoundOnce : Prop :=
  (∀ (ps : List Pixel) (k : Nat) (nb nr : Int), ps.length = k → k = 2 ∨ k = 4 ∨ k = 8 →
    nb = (ps.map fun p => (128000 : Int) - 169 * p.r.toNat - 331 * p.g.toNat + 500 * p.b.toNat).sum →
    nr = (ps.map fun p => (128000 : Int) + 500 * p.r.toNat - 419 * p.g.toNat - 81 * p.b.toNat).sum →
    ((chromaBlueAvg ps).toNat : Int) = min 255 ((nb + 500 * k) / (1000 * k))
    ∧ ((chromaRedAvg ps).toNat : Int) = min 255 ((nr + 500 * k) / (1000 * k))
    ∧ (255 < (nb + 500 * k) / (1000 * k) ↔ ∀ p ∈ ps, p = ⟨0#8, 0#8, 255#8⟩)
    ∧ (255 < (nr + 500 * k) / (1000 * k) ↔ ∀ p ∈ ps, p = ⟨255#8, 0#8, 0#8⟩)
    ∧ ((∀ p ∈ ps, p.r = p.g ∧ p.g = p.b) → chromaBlueAvg ps = 128#8 ∧ chromaRedAvg ps = 128#8))
    ∧ (∀ ps qs : List Pixel, ps.Perm qs → chromaBlueAvg ps = chromaBlueAvg qs ∧ chromaRedAvg ps = chromaRedAvg qs)
    ∧ (∀ (p : Pixel) (k : Nat), k = 1 ∨ k = 2 ∨ k = 4 ∨ k = 8 →
        chromaBlueAvg (List.replicate k p) = chromaBlue p ∧ chromaRedAvg (List.replicate k p) = chromaRed p)
    ∧ chromaBlueAvg [⟨0#8, 0#8, 0#8⟩, ⟨0#8, 0#8, 1#8⟩] = 128#8
    ∧ chromaBlue ⟨0#8, 0#8, 0#8⟩ = 128#8 ∧ chromaBlue ⟨0#8, 0#8, 1#8⟩ = 129#8
    ∧ chromaBlueAvg [⟨0#8, 0#8, 0#8⟩, ⟨0#8, 0#8, 2#8⟩] = 129#8 ∧ chromaBlue ⟨0#8, 0#8, 2#8⟩ = 129#8
    ∧ chromaRedAvg [⟨0#8, 0#8, 0#8⟩, ⟨0#8, 2#8, 3#8⟩] = 127#8

/-! ### Subsampler -/

/-- The crop rule: the effective dimensions are the largest multiples of the mode's factors within the native ones (R121, R122). -/
def Obligations.CropToMultiples : Prop :=
  ∀ (m : Mode) (nw nh : Word),
    cropWidth m nw % m.hx = 0 ∧ cropHeight m nh % m.vy = 0
    ∧ cropWidth m nw ≤ nw.toNat ∧ nw.toNat < cropWidth m nw + m.hx
    ∧ cropHeight m nh ≤ nh.toNat ∧ nh.toNat < cropHeight m nh + m.vy
    ∧ (m.hx, m.vy) = (match m with | .c444 => (1, 1) | .c422 => (2, 1) | .c420 => (2, 2) | .c411 => (4, 1) | .c410 => (4, 2))

/-- Byte `i*w + j` of the Y plane is the luma of pixel (i, j), in every mode (R123). -/
def Obligations.LumaPlaneOrder : Prop :=
  ∀ (w h : Nat) (px : Nat → Nat → Pixel), (yPlane w h px).length = w * h
    ∧ ∀ i j : Nat, i < h → j < w → (yPlane w h px)[i * w + j]? = some (luma (px i j))

/-- The chroma planes of each mode are those its layout rule writes, with the sizes it gives, for the widths and heights that the rule
takes as its operands: multiples of HX and VY (R124 to R128). -/
def Obligations.ChromaLayoutsPerMode : Prop :=
  ∀ (w h : Nat) (px : Nat → Nat → Pixel),
    (cbPlane .c444 w h px = plane h w (fun i j => chromaBlue (px i j))
      ∧ crPlane .c444 w h px = plane h w (fun i j => chromaRed (px i j)))
    ∧ (w % 2 = 0 →
      cbPlane .c422 w h px = plane h (w / 2) (fun i j => chromaBlueAvg [px i (2 * j), px i (2 * j + 1)])
      ∧ crPlane .c422 w h px = plane h (w / 2) (fun i j => chromaRedAvg [px i (2 * j), px i (2 * j + 1)]))
    ∧ (w % 2 = 0 → h % 2 = 0 →
      cbPlane .c420 w h px = plane (h / 2) (w / 2) (fun i j =>
          chromaBlueAvg [px (2 * i) (2 * j), px (2 * i) (2 * j + 1), px (2 * i + 1) (2 * j), px (2 * i + 1) (2 * j + 1)])
      ∧ crPlane .c420 w h px = plane (h / 2) (w / 2) (fun i j =>
          chromaRedAvg [px (2 * i) (2 * j), px (2 * i) (2 * j + 1), px (2 * i + 1) (2 * j), px (2 * i + 1) (2 * j + 1)]))
    ∧ (w % 4 = 0 →
      cbPlane .c411 w h px = plane h (w / 4) (fun i j =>
          chromaBlueAvg [px i (4 * j), px i (4 * j + 1), px i (4 * j + 2), px i (4 * j + 3)])
      ∧ crPlane .c411 w h px = plane h (w / 4) (fun i j =>
          chromaRedAvg [px i (4 * j), px i (4 * j + 1), px i (4 * j + 2), px i (4 * j + 3)]))
    ∧ (w % 4 = 0 → h % 2 = 0 →
      cbPlane .c410 w h px = plane (h / 2) (w / 4) (fun i j =>
          chromaBlueAvg [px (2 * i) (4 * j), px (2 * i) (4 * j + 1), px (2 * i) (4 * j + 2), px (2 * i) (4 * j + 3),
            px (2 * i + 1) (4 * j), px (2 * i + 1) (4 * j + 1), px (2 * i + 1) (4 * j + 2), px (2 * i + 1) (4 * j + 3)])
      ∧ crPlane .c410 w h px = plane (h / 2) (w / 4) (fun i j =>
          chromaRedAvg [px (2 * i) (4 * j), px (2 * i) (4 * j + 1), px (2 * i) (4 * j + 2), px (2 * i) (4 * j + 3),
            px (2 * i + 1) (4 * j), px (2 * i + 1) (4 * j + 1), px (2 * i + 1) (4 * j + 2), px (2 * i + 1) (4 * j + 3)]))
    ∧ ∀ m : Mode, w % m.hx = 0 → h % m.vy = 0 →
        (cbPlane m w h px).length = w / m.hx * (h / m.vy) ∧ (crPlane m w h px).length = w / m.hx * (h / m.vy)
        ∧ (planes m w h px).length = w * h + 2 * (w / m.hx * (h / m.vy))

/-- In every mode, in a cropped picture (w a multiple of HX, h of VY), chroma sample (i, j), byte `i*(w/HX) + j` of its plane, is the
average over the HX * VY pixels `px(VY*i + a, HX*j + c)`, all inside the picture, and every pixel feeds exactly one sample (R133). -/
def Obligations.ChromaBlocksTileThePicture : Prop :=
  (∀ (m : Mode) (w h : Nat) (px : Nat → Nat → Pixel) (i j : Nat), w % m.hx = 0 → h % m.vy = 0 → i < h / m.vy → j < w / m.hx →
    (cbPlane m w h px)[i * (w / m.hx) + j]? = some (chromaBlueAvg
      ((List.range m.vy).flatMap fun a => (List.range m.hx).map fun c => px (m.vy * i + a) (m.hx * j + c)))
    ∧ (crPlane m w h px)[i * (w / m.hx) + j]? = some (chromaRedAvg
      ((List.range m.vy).flatMap fun a => (List.range m.hx).map fun c => px (m.vy * i + a) (m.hx * j + c)))
    ∧ ∀ a c : Nat, a < m.vy → c < m.hx → m.vy * i + a < h ∧ m.hx * j + c < w)
  ∧ ∀ (m : Mode) (w h row col : Nat), w % m.hx = 0 → h % m.vy = 0 → row < h → col < w →
    row / m.vy < h / m.vy ∧ col / m.hx < w / m.hx
    ∧ ∀ i j : Nat, (∃ a c, a < m.vy ∧ c < m.hx ∧ row = m.vy * i + a ∧ col = m.hx * j + c) ↔ i = row / m.vy ∧ j = col / m.hx

/-- Plane and frame sizes, exact for cropped dimensions; the marker's 6 bytes are not in FS (R129). -/
def Obligations.PlaneAndFrameSizes : Prop :=
  ∀ (m : Mode) (w h : Nat) (px : Nat → Nat → Pixel), w % m.hx = 0 → h % m.vy = 0 →
    (yPlane w h px).length = w * h
    ∧ (cbPlane m w h px).length * (m.hx * m.vy) = w * h ∧ (crPlane m w h px).length * (m.hx * m.vy) = w * h
    ∧ (planes m w h px).length = frameSize m w h ∧ (frameBytes m w h px).length = 6 + frameSize m w h
    ∧ frameSize m w h = (match m with
        | .c444 => 3 * w * h | .c422 => 2 * w * h | .c420 => 3 * w * h / 2 | .c411 => 3 * w * h / 2 | .c410 => 5 * w * h / 4)
    ∧ (w * h < 2 ^ 32 → frameSize m w h < 3 * 2 ^ 32)

/-- A frame is the marker `FRAME\n`, then the Y plane, the Cb plane and the Cr plane, with nothing between or after them (R130, R148). -/
def Obligations.FrameBytesInOrder : Prop :=
  ∀ (m : Mode) (w h : Nat) (px : Nat → Nat → Pixel),
    frameBytes m w h px =
      [0x46#8, 0x52#8, 0x41#8, 0x4D#8, 0x45#8, 0x0A#8] ++ yPlane w h px ++ cbPlane m w h px ++ crPlane m w h px

/-! ### Framer -/

/-- `dec(n)`: ASCII digits, most significant first, that stand for n, and no leading zero (R141). -/
def Obligations.DecimalText : Prop :=
  dec 0 = [0x30#8]
    ∧ ∀ n : Nat, (dec n).foldl (fun acc c => 10 * acc + (c.toNat - 0x30)) 0 = n
      ∧ (∀ c ∈ dec n, 0x30 ≤ c.toNat ∧ c.toNat ≤ 0x39)
      ∧ (1 ≤ n → ∃ c cs, dec n = c :: cs ∧ c ≠ 0x30#8)

/-- The ASCII bytes of a text (00_scope R9). -/
def Sys2Proof.Machine.asciiText (text : String) : List Byte := text.toList.map fun c => BitVec.ofNat 8 c.toNat

/-- The header line, byte for byte (R146), with the extension exactly when it has 1 to 200 bytes, all 0x21 to 0x7E (R144). -/
def Obligations.HeaderLine : Prop :=
  ∀ s : State, ∃ ext : List Byte,
    header s = asciiText "YUV4MPEG2 W" ++ dec s.ew.toNat ++ asciiText " H" ++ dec s.eh.toNat ++ asciiText " F"
      ++ dec s.frn.toNat ++ asciiText ":" ++ dec s.frd.toNat ++ asciiText " I" ++ [s.il] ++ asciiText " A"
      ++ dec s.parn.toNat ++ asciiText ":" ++ dec s.pard.toNat ++ asciiText " " ++ s.mode.tag ++ ext ++ asciiText "\n"
    ∧ ((1 ≤ s.extlen.toNat ∧ s.extlen.toNat ≤ 200 ∧ ∀ i, i < s.extlen.toNat → 0x21 ≤ (s.extAt i).toNat ∧ (s.extAt i).toNat ≤ 0x7E) →
        ext = asciiText " X" ++ (List.range s.extlen.toNat).map fun i => s.extAt i)
    ∧ (¬(1 ≤ s.extlen.toNat ∧ s.extlen.toNat ≤ 200
          ∧ ∀ i, i < s.extlen.toNat → 0x21 ≤ (s.extAt i).toNat ∧ (s.extAt i).toNat ≤ 0x7E) → ext = [])

/-- HDRBAD (R143): a zero dimension, a rate or aspect component that is not positive as two's complement, or a flag that is none of
`p`, `t`, `b`, `m`; a `Mode` is always one of the five. -/
def Obligations.HeaderValidity : Prop :=
  ∀ (w h : Nat) (s : State), headerBad w h s = true ↔
    (w = 0 ∨ h = 0 ∨ s.frn.toInt ≤ 0 ∨ s.frd.toInt ≤ 0 ∨ s.parn.toInt ≤ 0 ∨ s.pard.toInt ≤ 0
      ∨ (s.il ≠ 0x70#8 ∧ s.il ≠ 0x74#8 ∧ s.il ≠ 0x62#8 ∧ s.il ≠ 0x6D#8))

/-- The length of the header, and its bounds 34 and 281 for a session's values (R147). -/
def Obligations.HeaderLength : Prop :=
  ∀ s : State,
    (header s).length = 28 + (dec s.ew.toNat).length + (dec s.eh.toNat).length + (dec s.frn.toNat).length
        + (dec s.frd.toNat).length + (dec s.parn.toNat).length + (dec s.pard.toNat).length
        + (if s.extOk then s.extlen.toNat + 2 else 0)
    ∧ (Inv s → s.session = .opened → 34 ≤ (header s).length ∧ (header s).length ≤ 281)

/-- The document's header scenario: 64 by 64 at 30/1 in C420 emits exactly the 37 bytes of 95_test_vectors E7, for any PB_CAPACITY of 4096
or more and any sink that takes them. -/
def Obligations.HeaderScenario : Prop :=
  ∀ s : State, s.session = .idle → s.nw = 64#32 → s.nh = 64#32 → s.frn = 30#32 → s.frd = 1#32 → s.parn = 1#32 →
    s.pard = 1#32 → s.il = 0x70#8 → s.extlen = 0#32 → 4096 ≤ s.pbCapacity → s.sinkAnswer.accepted 37 = 37 →
    ∃ t, exec .openC420 s = .next t ∧ t.out = s.out ++ asciiText "YUV4MPEG2 W64 H64 F30:1 Ip A1:1 C420\n"
      ∧ t.responses = s.responses ++ [0x0000000000#40] ∧ t.ew = 64#32 ∧ t.eh = 64#32 ∧ t.mode = .c420
      ∧ t.bytes = 37#64 ∧ t.session = .opened

/-! ### The machine as a whole -/

/-- Reset meets the invariant. -/
def Obligations.InvariantAtReset : Prop := Inv State.reset

/-- Every step keeps the invariant, from every state that meets it. -/
def Obligations.InvariantKept : Prop := ∀ s t : State, Inv s → step s = .next t → Inv t

/-- From a state that meets the invariant every step answers a next state: every word, legal or not, in every session state, is
performed, and no stop of the model is reached (30_encoding R78). ASSUMPTION (70_reset_and_hazards R246; log 12): the sink answers every
offer of bytes, by taking all or refusing some; this termination is the model's, and a sink that never answers is not modelled. -/
def Obligations.NoStopFromTheInvariant : Prop := ∀ s : State, Inv s → ∃ t, step s = .next t

/-- A step takes one event at most and leaves those after it, never changes PB_CAPACITY, and adds to the sink's and the response history
at their ends only (20_memory R57, R60). -/
def Obligations.EnvironmentHistoriesGrow : Prop :=
  ∀ s t : State, step s = .next t →
    t.port = s.port.tail ∧ t.pbCapacity = s.pbCapacity ∧ s.out <+: t.out ∧ s.responses <+: t.responses

/-- Only OPEN and FRAME emit (R57): bytes reach the sink only in a step that takes the word of one of them. -/
def Obligations.OnlyOpenAndFrameEmit : Prop :=
  ∀ s t : State, step s = .next t → t.out ≠ s.out → s.nextIs .frame ∨ ∃ m : Mode, s.nextIs (openInstr m)

/-- BYTES counts, modulo 2^64, the bytes the sink accepted in the session: OPEN and FRAME count what they added to the sink's record, a
failing prefix included, no other command but RESET changes it, and RD reads its two halves (R35). -/
def Obligations.BytesCountsAcceptedBytes : Prop :=
  (∀ s : State, exec (.rd 0x0E#8) s = .next (s.answered (0#8 ++ BitVec.ofNat 32 s.bytes.toNat))
    ∧ exec (.rd 0x0F#8) s = .next (s.answered (0#8 ++ BitVec.ofNat 32 (s.bytes.toNat / 2 ^ 32))))
  ∧ ∀ s t : State, step s = .next t → ¬ s.nextIsReset →
    (s.session = .opened → t.bytes = s.bytes + BitVec.ofNat 64 (t.out.length - s.out.length))
    ∧ (s.session = .idle → t.session = .opened ∨ (t.session = .failed ∧ t.err = some .io) →
        t.bytes = BitVec.ofNat 64 (t.out.length - s.out.length))
    ∧ ((∀ m : Mode, ¬ s.nextIs (openInstr m)) → ¬ s.nextIs .frame → t.bytes = s.bytes)

/-- Outside IDLE the configuration and the extension are fixed: the commands that write them are legal in IDLE only, and only a reset
changes them (R45). -/
def Obligations.ConfigurationIsWrittenInIdleOnly : Prop :=
  (∀ s t : State, s.session ≠ .idle → step s = .next t → ¬ s.nextIsReset →
    t.nw = s.nw ∧ t.nh = s.nh ∧ t.frn = s.frn ∧ t.frd = s.frd ∧ t.parn = s.parn ∧ t.pard = s.pard ∧ t.il = s.il
      ∧ t.extlen = s.extlen ∧ t.ext = s.ext)
  ∧ (∀ v : Word, LegalInIdleOnly (.setnw v) ∧ LegalInIdleOnly (.setnh v) ∧ LegalInIdleOnly (.setfrn v)
      ∧ LegalInIdleOnly (.setfrd v) ∧ LegalInIdleOnly (.setparn v) ∧ LegalInIdleOnly (.setpard v))
  ∧ LegalInIdleOnly .extclr ∧ ∀ c : Byte, LegalInIdleOnly (.setil c) ∧ LegalInIdleOnly (.extb c)

/-- MODE, EW, EH and WARN are written by OPEN and by the resets only (R31, R32, R37). -/
def Obligations.OpenRegistersWriters : Prop :=
  ∀ s t : State, step s = .next t → ¬ s.nextIsReset → (∀ m : Mode, ¬ s.nextIs (openInstr m)) →
    t.mode = s.mode ∧ t.ew = s.ew ∧ t.eh = s.eh ∧ t.warn = s.warn

/-- The sink may accept any count of the bytes it is offered, and never more (R58). -/
def Obligations.SinkAcceptsAnyPrefix : Prop :=
  ∀ len : Nat, (∀ a : SinkAnswer, a.accepted len ≤ len) ∧ ∀ n : Nat, n ≤ len → ∃ a : SinkAnswer, a.accepted len = n

/-- What is not loaded is not observable: two states that differ only in pixels not loaded for this frame and in bytes of EXT beyond EXTLEN
take the same step, with the same output and responses, to two states that differ only so (R54, R55, U1, U2). -/
def Obligations.UnreadContentsAreUnobservable : Prop :=
  ∀ s s' t : State, Inv s → Inv s' → SameButUnread s s' → step s = .next t →
    ∃ t', step s' = .next t' ∧ SameButUnread t t' ∧ t'.out = t.out ∧ t'.responses = t.responses

/-- A session that follows the grammar (R235), with a sink that takes everything, ends well (R10): OPEN, for each frame exactly EW * EH
pixels and FRAME, then CLOSE, from IDLE with values that pass OPEN's checks, leave STATE IDLE and ERR as it was, and the sink has
received exactly HEADER and the frames in order (R149). -/
def Obligations.SessionEmitsItsStream : Prop :=
  ∀ (s : State) (m : Mode) (frames : List (List Pixel)) (rest : List PortEvent) (answers : List SinkAnswer),
    Inv s → s.session = .idle → s.canOpen m →
    (∀ pixels ∈ frames, pixels.length = cropWidth m s.nw * cropHeight m s.nh) →
    s.port = commandEvents (sessionCommands m frames) ++ rest →
    s.sinkScript = List.replicate (frames.length + 1) .takesAll ++ answers →
    ∃ t, core.run (sessionCommands m frames).length s = .next t ∧ t.session = .idle ∧ t.err = none ∧ t.port = rest
      ∧ t.out = s.out ++ header (s.committed m (cropWidth m s.nw) (cropHeight m s.nh))
          ++ framesStream m (cropWidth m s.nw) (cropHeight m s.nh) frames
      ∧ t.frames = BitVec.ofNat 32 frames.length

/-- The PIX commands of the pixels supplied for a native picture load the cropped picture: in a session with no pixel loaded they are
performed one by one, change nothing but PB, WP and the responses, and leave WP = EW * EH and, in row i and column j of the picture that
FRAME reads, the native pixel of that row and column, with EW and EH those of the crop rule. As a list they are that picture too (R238,
R132, 20_memory R53). -/
def Obligations.SuppliedPixelsAreTheCroppedPicture : Prop :=
  (∀ (native : Nat → Nat → Pixel) (s : State) (rest : List PortEvent),
    Inv s → s.session = .opened → s.wp = 0#32 →
    s.port = commandEvents
      ((suppliedPixels native (cropWidth s.mode s.nw) (cropHeight s.mode s.nh)).map fun p => .pix p) ++ rest →
    ∃ t, core.run (cropWidth s.mode s.nw * cropHeight s.mode s.nh) s = .next t
      ∧ t = { s with pb := t.pb, wp := t.wp, port := rest, responses := t.responses }
      ∧ t.ew.toNat = cropWidth s.mode s.nw ∧ t.eh.toNat = cropHeight s.mode s.nh ∧ t.wp.toNat = t.ew.toNat * t.eh.toNat
      ∧ ∀ i j : Nat, i < t.eh.toNat → j < t.ew.toNat → t.px i j = native i j)
  ∧ ∀ (native : Nat → Nat → Pixel) (w h i j : Nat), i < h → j < w →
    (suppliedPixels native w h).length = w * h ∧ pictureOf w (suppliedPixels native w h) i j = native i j

/-- The pseudo-commands' expansions (R80). -/
def Obligations.PseudoCommandExpansions : Prop :=
  (∀ w h : Word, Pseudo.expand (.setdim w h) = [.setnw w, .setnh h])
    ∧ (∀ n d : Word, Pseudo.expand (.setrate n d) = [.setfrn n, .setfrd d])
    ∧ (∀ n d : Word, Pseudo.expand (.setpar n d) = [.setparn n, .setpard d])
    ∧ (∀ cs : List Byte, Pseudo.expand (.ext cs) = [.extclr] ++ cs.map (fun c => .extb c))
    ∧ (∀ ps : List Pixel, Pseudo.expand (.pixels ps) = ps.map (fun p => .pix p))

/-- The assembler notation gives R79's words for R79's lines. -/
def Obligations.AssemblerExamples : Prop :=
  assemble ["FRAME", "SETNW 64", "SETIL 'p'", "PIX 255, 128, 64"]
      = some [0x2200000000#40, 0x1000000040#40, 0x1600000070#40, 0x2100FF8040#40]
    ∧ assemble ["OPEN C420", "RD EW", "ABORT FormatError", "SETFRN -1 # the same word as 4294967295"]
      = some [0x2000000002#40, 0x300000000A#40, 0x2400000002#40, 0x12FFFFFFFF#40]
end

