-- ==== Sys2Proof/Laws/Decode.lean ====
section
/-! SUPPORT. The fields of command words as numbers: op and arg taken apart and put together, the reserved operand bits as bounds, the
packed operands. -/

namespace Sys2Proof

theorem toNat_word (op : Byte) (arg : Word) : (op ++ arg : PortWord).toNat = op.toNat * 2 ^ 32 + arg.toNat := by
  rw [BitVec.toNat_append, ← Nat.shiftLeft_add_eq_or_of_lt arg.isLt, Nat.shiftLeft_eq]

@[simp] theorem opOf_word (op : Byte) (arg : Word) : opOf (op ++ arg) = op := by
  apply BitVec.eq_of_toNat_eq
  rw [opOf, BitVec.extractLsb'_toNat, toNat_word, Nat.shiftRight_eq_div_pow]
  have := op.isLt; have := arg.isLt; omega

@[simp] theorem argOf_word (op : Byte) (arg : Word) : argOf (op ++ arg) = arg := by
  apply BitVec.eq_of_toNat_eq
  rw [argOf, BitVec.extractLsb'_toNat, toNat_word, Nat.shiftRight_eq_div_pow]
  have := op.isLt; have := arg.isLt; omega

/-- A word is its two fields. -/
theorem word_of_fields (w : PortWord) : opOf w ++ argOf w = w := by
  apply BitVec.eq_of_toNat_eq
  rw [toNat_word, opOf, argOf, BitVec.extractLsb'_toNat, BitVec.extractLsb'_toNat, Nat.shiftRight_eq_div_pow,
    Nat.shiftRight_eq_div_pow]
  have := w.isLt; omega

theorem toNat_byteOperand (arg : Word) : (byteOperand arg).toNat = arg.toNat % 256 := by
  rw [byteOperand, BitVec.extractLsb'_toNat, Nat.shiftRight_zero]

@[simp] theorem byteOperand_setWidth (c : Byte) : byteOperand (c.setWidth 32) = c := by
  apply BitVec.eq_of_toNat_eq
  rw [toNat_byteOperand, BitVec.toNat_setWidth]
  have := c.isLt; omega

theorem setWidth_byteOperand {arg : Word} (h : arg.toNat < 256) : (byteOperand arg).setWidth 32 = arg := by
  apply BitVec.eq_of_toNat_eq
  rw [BitVec.toNat_setWidth, toNat_byteOperand]
  omega

theorem toNat_packPixel (p : Pixel) : (packPixel p).toNat = p.r.toNat * 2 ^ 16 + p.g.toNat * 2 ^ 8 + p.b.toNat := by
  obtain ⟨r, g, b⟩ := p
  simp only [packPixel]
  rw [BitVec.toNat_append, BitVec.toNat_append, BitVec.toNat_append, ← Nat.shiftLeft_add_eq_or_of_lt r.isLt,
    ← Nat.shiftLeft_add_eq_or_of_lt g.isLt, ← Nat.shiftLeft_add_eq_or_of_lt b.isLt]
  simp only [Nat.shiftLeft_eq, BitVec.toNat_ofNat]
  omega

@[simp] theorem pixelOperand_packPixel (p : Pixel) : pixelOperand (packPixel p) = p := by
  have h := toNat_packPixel p
  obtain ⟨r, g, b⟩ := p
  have := r.isLt; have := g.isLt; have := b.isLt
  simp only [pixelOperand, Pixel.mk.injEq] at h ⊢
  refine ⟨?_, ?_, ?_⟩ <;>
    (apply BitVec.eq_of_toNat_eq; rw [BitVec.extractLsb'_toNat, h, Nat.shiftRight_eq_div_pow]; omega)

theorem packPixel_pixelOperand {arg : Word} (h : arg.toNat < 2 ^ 24) : packPixel (pixelOperand arg) = arg := by
  apply BitVec.eq_of_toNat_eq
  rw [toNat_packPixel]
  simp only [pixelOperand, BitVec.extractLsb'_toNat, Nat.shiftRight_eq_div_pow]
  omega

theorem and_high24 (arg : Word) : arg &&& 0xFFFFFF00#32 = (arg >>> 8) <<< 8 := by
  ext i hi
  interval_cases i <;> simp

theorem and_high8 (arg : Word) : arg &&& 0xFF000000#32 = (arg >>> 24) <<< 24 := by
  ext i hi
  interval_cases i <;> simp

theorem high24_zero (arg : Word) : arg &&& 0xFFFFFF00#32 = 0#32 ↔ arg.toNat < 256 := by
  rw [and_high24, ← BitVec.toNat_inj]
  simp only [BitVec.toNat_shiftLeft, BitVec.toNat_ushiftRight, Nat.shiftRight_eq_div_pow, Nat.shiftLeft_eq, BitVec.toNat_ofNat]
  have := arg.isLt; omega

theorem high8_zero (arg : Word) : arg &&& 0xFF000000#32 = 0#32 ↔ arg.toNat < 2 ^ 24 := by
  rw [and_high8, ← BitVec.toNat_inj]
  simp only [BitVec.toNat_shiftLeft, BitVec.toNat_ushiftRight, Nat.shiftRight_eq_div_pow, Nat.shiftLeft_eq, BitVec.toNat_ofNat]
  have := arg.isLt; omega

/-- How many values of `arg` a form accepts: exactly those below this bound (30_encoding R73, R76). -/
def Form.operandBound : Form → Nat
  | .none => 1
  | .word => 2 ^ 32
  | .byte => 256
  | .pixel => 2 ^ 24
  | .mode => 256
  | .register => 256
  | .error => 256

/-- The reserved operand bits are zero exactly below the form's bound. -/
theorem Form.accepts_iff (f : Form) (arg : Word) : f.accepts arg = true ↔ arg.toNat < f.operandBound := by
  simp only [Form.accepts, beq_iff_eq]
  have hall : arg &&& 0xFFFFFFFF#32 = arg := by
    have : (0xFFFFFFFF#32) = BitVec.allOnes 32 := by decide
    rw [this, BitVec.and_allOnes]
  cases f <;> simp only [Form.reservedBits, Form.operandBound]
  · rw [hall, ← BitVec.toNat_inj]; simp
  · simp [arg.isLt]
  · exact high24_zero arg
  · exact high8_zero arg
  · exact high24_zero arg
  · exact high24_zero arg
  · exact high24_zero arg

/-- Decoding the word with these fields, once the opcode's row is known. -/
theorem decode_word {op : Byte} {form : Form} {make : Word → Instr} (hop : operation op = some (form, make)) (arg : Word) :
    decode (op ++ arg) =
      if arg.toNat < form.operandBound then .ok (make arg) else .error (.reservedOperandBits op arg) := by
  simp only [decode, opOf_word, argOf_word, hop]
  by_cases h : arg.toNat < form.operandBound
  · simp [h, (Form.accepts_iff form arg).mpr h]
  · have : form.accepts arg = false := by simpa using fun hc => h ((Form.accepts_iff form arg).mp hc)
    simp [h, this]

theorem decode_reserved {op : Byte} (hop : operation op = none) (arg : Word) :
    decode (op ++ arg) = .error (.reservedOpcode op) := by
  simp only [decode, opOf_word, hop]

/-- The operand of a byte form. -/
theorem zeroExtended_byte (c : Byte) : (0#24 ++ c : Word) = c.setWidth 32 := by
  apply BitVec.eq_of_toNat_eq
  rw [BitVec.toNat_append, BitVec.toNat_setWidth]
  have := c.isLt
  simp only [BitVec.toNat_ofNat, Nat.zero_mod, Nat.zero_shiftLeft, Nat.zero_or]
  omega

end Sys2Proof
end

