-- ==== Sys2Proof/Laws/Memory.lean ====
section
/-! SUPPORT. The laws of the canonical memory: what a read gives after a write, that a write keeps the canonical form, and that two
canonical memories that read alike are equal. -/

namespace Sys2Proof.Machine

variable {α : Type} [DecidableEq α] {blank : α} {size : Nat}

theorem Memory.wfFrom_cons {start b : Nat} {x : α} {m : List (Nat × α)} :
    Memory.wfFrom blank size start ((b, x) :: m) = true ↔
      start ≤ b ∧ b < size ∧ x ≠ blank ∧ Memory.wfFrom blank size (b + 1) m = true := by
  simp [Memory.wfFrom, and_assoc]

/-- Addresses below the lowest one are not listed. -/
theorem Memory.read_below {m : List (Nat × α)} : ∀ {start a : Nat},
    Memory.wfFrom blank size start m = true → a < start → Memory.read blank m a = blank := by
  induction m with
  | nil => intros; rfl
  | cons e m ih =>
    obtain ⟨b, x⟩ := e
    intro start a h ha
    obtain ⟨hb, -, -, hm⟩ := Memory.wfFrom_cons.mp h
    have hne : a ≠ b := by omega
    simpa [Memory.read, hne] using ih hm (by omega)

theorem Memory.wfFrom_mono {m : List (Nat × α)} {start start' : Nat} (hle : start' ≤ start)
    (h : Memory.wfFrom blank size start m = true) : Memory.wfFrom blank size start' m = true := by
  cases m with
  | nil => rfl
  | cons e m =>
    obtain ⟨hb, rest⟩ := Memory.wfFrom_cons.mp h
    exact Memory.wfFrom_cons.mpr ⟨by omega, rest⟩

/-- A write within the size keeps the canonical form. -/
theorem Memory.write_wfFrom {m : List (Nat × α)} {a : Nat} (v : α) (hsize : a < size) : ∀ {start : Nat},
    Memory.wfFrom blank size start m = true → start ≤ a →
      Memory.wfFrom blank size start (Memory.write blank a v m) = true := by
  induction m with
  | nil =>
    intro start _ ha
    by_cases hv : v = blank
    · simp [Memory.write, hv, Memory.wfFrom]
    · simp [Memory.write, hv, Memory.wfFrom, ha, hsize]
  | cons e m ih =>
    obtain ⟨b, x⟩ := e
    intro start h ha
    obtain ⟨hb, hbs, hx, hm⟩ := Memory.wfFrom_cons.mp h
    unfold Memory.write
    by_cases hab : a < b
    · by_cases hv : v = blank
      · simpa [hab, hv] using h
      · simp only [hab, hv, if_true, if_false]
        exact Memory.wfFrom_cons.mpr ⟨ha, hsize, hv, Memory.wfFrom_cons.mpr ⟨hab, hbs, hx, hm⟩⟩
    · by_cases hae : a = b
      · subst hae
        by_cases hv : v = blank
        · simpa [hv] using Memory.wfFrom_mono (by omega) hm
        · simp only [lt_irrefl, hv, if_true, if_false]
          exact Memory.wfFrom_cons.mpr ⟨hb, hbs, hv, hm⟩
      · simp only [hab, hae, if_false]
        exact Memory.wfFrom_cons.mpr ⟨hb, hbs, hx, ih hm (by omega)⟩

/-- A write within the size keeps the canonical form. -/
theorem Memory.write_wf {m : List (Nat × α)} {a : Nat} (v : α) (hsize : a < size)
    (h : Memory.wf blank size m = true) : Memory.wf blank size (Memory.write blank a v m) = true :=
  Memory.write_wfFrom v hsize h (Nat.zero_le a)

/-- A read after a write gives the value written there, and what was there before anywhere else. -/
theorem Memory.read_writeFrom {m : List (Nat × α)} {a : Nat} (v : α) (c : Nat) : ∀ {start : Nat},
    Memory.wfFrom blank size start m = true →
      Memory.read blank (Memory.write blank a v m) c = if c = a then v else Memory.read blank m c := by
  induction m with
  | nil =>
    intro start _
    by_cases hv : v = blank <;> by_cases hc : c = a <;> simp [Memory.write, Memory.read, hv, hc]
  | cons e m ih =>
    obtain ⟨b, x⟩ := e
    intro start h
    obtain ⟨-, -, -, hm⟩ := Memory.wfFrom_cons.mp h
    unfold Memory.write
    by_cases hab : a < b
    · have hlow : Memory.read blank ((b, x) :: m) a = blank :=
        Memory.read_below (Memory.wfFrom_cons.mpr ⟨Nat.le_refl b, by
          obtain ⟨-, rest⟩ := Memory.wfFrom_cons.mp h; exact rest⟩) hab
      by_cases hv : v = blank
      · by_cases hc : c = a
        · subst hc; simp [hab, hv, hlow]
        · simp [hab, hv, hc]
      · simp only [hab, hv, if_true, if_false]
        by_cases hc : c = a <;> simp [Memory.read, hc]
    · by_cases hae : a = b
      · subst hae
        by_cases hv : v = blank
        · by_cases hc : c = a
          · subst hc; simpa [hv] using Memory.read_below hm (Nat.lt_succ_self c)
          · simp [hv, hc, Memory.read]
        · by_cases hc : c = a <;> simp [hv, hc, Memory.read]
      · simp only [hab, hae, if_false, Memory.read]
        by_cases hcb : c = b
        · subst hcb
          have hca : c ≠ a := fun h => hae h.symm
          simp [hca]
        · simp only [hcb, if_false]; exact ih hm

/-- A read after a write gives the value written there, and what was there before anywhere else. -/
theorem Memory.read_write {m : List (Nat × α)} (a : Nat) (v : α) (c : Nat) (h : Memory.wf blank size m = true) :
    Memory.read blank (Memory.write blank a v m) c = if c = a then v else Memory.read blank m c :=
  Memory.read_writeFrom v c h

/-- Canonical: two memories in the form that read alike everywhere are equal. -/
theorem Memory.eq_of_read {m : List (Nat × α)} : ∀ {m' : List (Nat × α)} {start start' : Nat},
    Memory.wfFrom blank size start m = true → Memory.wfFrom blank size start' m' = true →
      (∀ a, Memory.read blank m a = Memory.read blank m' a) → m = m' := by
  induction m with
  | nil =>
    intro m' start start' _ h' hr
    cases m' with
    | nil => rfl
    | cons e m' =>
      obtain ⟨b, x⟩ := e
      obtain ⟨-, -, hx, -⟩ := Memory.wfFrom_cons.mp h'
      exact absurd (by simpa [Memory.read] using hr b) (Ne.symm hx)
  | cons e m ih =>
    obtain ⟨b, x⟩ := e
    intro m' start start' h h' hr
    obtain ⟨-, hbs, hx, hm⟩ := Memory.wfFrom_cons.mp h
    cases m' with
    | nil => exact absurd (by simpa [Memory.read] using hr b) hx
    | cons e' m' =>
      obtain ⟨b', x'⟩ := e'
      obtain ⟨-, hbs', hx', hm'⟩ := Memory.wfFrom_cons.mp h'
      have hbb : b = b' := by
        rcases Nat.lt_trichotomy b b' with hlt | heq | hgt
        · have := hr b
          rw [Memory.read_below (Memory.wfFrom_cons.mpr ⟨Nat.le_refl b', hbs', hx', hm'⟩) hlt] at this
          exact absurd (by simpa [Memory.read] using this) hx
        · exact heq
        · have := hr b'
          rw [Memory.read_below (Memory.wfFrom_cons.mpr ⟨Nat.le_refl b, hbs, hx, hm⟩) hgt] at this
          exact absurd (by simpa [Memory.read] using this.symm) hx'
      subst hbb
      have hxx : x = x' := by simpa [Memory.read] using hr b
      subst hxx
      have htail : m = m' := ih hm hm' fun a => by
        by_cases hab : a = b
        · subst hab
          rw [Memory.read_below hm (Nat.lt_succ_self a), Memory.read_below hm' (Nat.lt_succ_self a)]
        · simpa [Memory.read, hab] using hr a
      rw [htail]

end Sys2Proof.Machine
end

