-- ==== Sys2Proof/Laws/State.lean ====
section
/-! SUPPORT. What each named update of the state does to each field, one lemma a field, true by rfl; later proofs rewrite with these
and do not unfold the updates. -/

namespace Sys2Proof.Machine

section Respond

@[simp] theorem State.respond_session (e : Byte) (d : Word) (s : State) : (s.respond e d).session = s.session := rfl
@[simp] theorem State.respond_warn (e : Byte) (d : Word) (s : State) : (s.respond e d).warn = s.warn := rfl
@[simp] theorem State.respond_err (e : Byte) (d : Word) (s : State) : (s.respond e d).err = s.err := rfl
@[simp] theorem State.respond_nw (e : Byte) (d : Word) (s : State) : (s.respond e d).nw = s.nw := rfl
@[simp] theorem State.respond_nh (e : Byte) (d : Word) (s : State) : (s.respond e d).nh = s.nh := rfl
@[simp] theorem State.respond_frn (e : Byte) (d : Word) (s : State) : (s.respond e d).frn = s.frn := rfl
@[simp] theorem State.respond_frd (e : Byte) (d : Word) (s : State) : (s.respond e d).frd = s.frd := rfl
@[simp] theorem State.respond_parn (e : Byte) (d : Word) (s : State) : (s.respond e d).parn = s.parn := rfl
@[simp] theorem State.respond_pard (e : Byte) (d : Word) (s : State) : (s.respond e d).pard = s.pard := rfl
@[simp] theorem State.respond_il (e : Byte) (d : Word) (s : State) : (s.respond e d).il = s.il := rfl
@[simp] theorem State.respond_mode (e : Byte) (d : Word) (s : State) : (s.respond e d).mode = s.mode := rfl
@[simp] theorem State.respond_ew (e : Byte) (d : Word) (s : State) : (s.respond e d).ew = s.ew := rfl
@[simp] theorem State.respond_eh (e : Byte) (d : Word) (s : State) : (s.respond e d).eh = s.eh := rfl
@[simp] theorem State.respond_wp (e : Byte) (d : Word) (s : State) : (s.respond e d).wp = s.wp := rfl
@[simp] theorem State.respond_frames (e : Byte) (d : Word) (s : State) : (s.respond e d).frames = s.frames := rfl
@[simp] theorem State.respond_bytes (e : Byte) (d : Word) (s : State) : (s.respond e d).bytes = s.bytes := rfl
@[simp] theorem State.respond_extlen (e : Byte) (d : Word) (s : State) : (s.respond e d).extlen = s.extlen := rfl
@[simp] theorem State.respond_ext (e : Byte) (d : Word) (s : State) : (s.respond e d).ext = s.ext := rfl
@[simp] theorem State.respond_pb (e : Byte) (d : Word) (s : State) : (s.respond e d).pb = s.pb := rfl
@[simp] theorem State.respond_pbCapacity (e : Byte) (d : Word) (s : State) : (s.respond e d).pbCapacity = s.pbCapacity := rfl
@[simp] theorem State.respond_port (e : Byte) (d : Word) (s : State) : (s.respond e d).port = s.port := rfl
@[simp] theorem State.respond_sinkScript (e : Byte) (d : Word) (s : State) : (s.respond e d).sinkScript = s.sinkScript := rfl
@[simp] theorem State.respond_sinkDraws (e : Byte) (d : Word) (s : State) : (s.respond e d).sinkDraws = s.sinkDraws := rfl
@[simp] theorem State.respond_out (e : Byte) (d : Word) (s : State) : (s.respond e d).out = s.out := rfl
@[simp] theorem State.respond_responses (e : Byte) (d : Word) (s : State) : (s.respond e d).responses = s.responses ++ [e ++ d] := rfl

end Respond

section Done

@[simp] theorem State.done_session (d : Word) (s : State) : (s.done d).session = s.session := rfl
@[simp] theorem State.done_warn (d : Word) (s : State) : (s.done d).warn = s.warn := rfl
@[simp] theorem State.done_err (d : Word) (s : State) : (s.done d).err = s.err := rfl
@[simp] theorem State.done_nw (d : Word) (s : State) : (s.done d).nw = s.nw := rfl
@[simp] theorem State.done_nh (d : Word) (s : State) : (s.done d).nh = s.nh := rfl
@[simp] theorem State.done_frn (d : Word) (s : State) : (s.done d).frn = s.frn := rfl
@[simp] theorem State.done_frd (d : Word) (s : State) : (s.done d).frd = s.frd := rfl
@[simp] theorem State.done_parn (d : Word) (s : State) : (s.done d).parn = s.parn := rfl
@[simp] theorem State.done_pard (d : Word) (s : State) : (s.done d).pard = s.pard := rfl
@[simp] theorem State.done_il (d : Word) (s : State) : (s.done d).il = s.il := rfl
@[simp] theorem State.done_mode (d : Word) (s : State) : (s.done d).mode = s.mode := rfl
@[simp] theorem State.done_ew (d : Word) (s : State) : (s.done d).ew = s.ew := rfl
@[simp] theorem State.done_eh (d : Word) (s : State) : (s.done d).eh = s.eh := rfl
@[simp] theorem State.done_wp (d : Word) (s : State) : (s.done d).wp = s.wp := rfl
@[simp] theorem State.done_frames (d : Word) (s : State) : (s.done d).frames = s.frames := rfl
@[simp] theorem State.done_bytes (d : Word) (s : State) : (s.done d).bytes = s.bytes := rfl
@[simp] theorem State.done_extlen (d : Word) (s : State) : (s.done d).extlen = s.extlen := rfl
@[simp] theorem State.done_ext (d : Word) (s : State) : (s.done d).ext = s.ext := rfl
@[simp] theorem State.done_pb (d : Word) (s : State) : (s.done d).pb = s.pb := rfl
@[simp] theorem State.done_pbCapacity (d : Word) (s : State) : (s.done d).pbCapacity = s.pbCapacity := rfl
@[simp] theorem State.done_port (d : Word) (s : State) : (s.done d).port = s.port := rfl
@[simp] theorem State.done_sinkScript (d : Word) (s : State) : (s.done d).sinkScript = s.sinkScript := rfl
@[simp] theorem State.done_sinkDraws (d : Word) (s : State) : (s.done d).sinkDraws = s.sinkDraws := rfl
@[simp] theorem State.done_out (d : Word) (s : State) : (s.done d).out = s.out := rfl
@[simp] theorem State.done_responses (d : Word) (s : State) : (s.done d).responses = s.responses ++ [0#8 ++ d] := rfl

end Done

section Raise

@[simp] theorem State.raise_session (c : ErrorCode) (s : State) : (s.raise c).session = .failed := rfl
@[simp] theorem State.raise_warn (c : ErrorCode) (s : State) : (s.raise c).warn = s.warn := rfl
@[simp] theorem State.raise_err (c : ErrorCode) (s : State) : (s.raise c).err = some c := rfl
@[simp] theorem State.raise_nw (c : ErrorCode) (s : State) : (s.raise c).nw = s.nw := rfl
@[simp] theorem State.raise_nh (c : ErrorCode) (s : State) : (s.raise c).nh = s.nh := rfl
@[simp] theorem State.raise_frn (c : ErrorCode) (s : State) : (s.raise c).frn = s.frn := rfl
@[simp] theorem State.raise_frd (c : ErrorCode) (s : State) : (s.raise c).frd = s.frd := rfl
@[simp] theorem State.raise_parn (c : ErrorCode) (s : State) : (s.raise c).parn = s.parn := rfl
@[simp] theorem State.raise_pard (c : ErrorCode) (s : State) : (s.raise c).pard = s.pard := rfl
@[simp] theorem State.raise_il (c : ErrorCode) (s : State) : (s.raise c).il = s.il := rfl
@[simp] theorem State.raise_mode (c : ErrorCode) (s : State) : (s.raise c).mode = s.mode := rfl
@[simp] theorem State.raise_ew (c : ErrorCode) (s : State) : (s.raise c).ew = s.ew := rfl
@[simp] theorem State.raise_eh (c : ErrorCode) (s : State) : (s.raise c).eh = s.eh := rfl
@[simp] theorem State.raise_wp (c : ErrorCode) (s : State) : (s.raise c).wp = s.wp := rfl
@[simp] theorem State.raise_frames (c : ErrorCode) (s : State) : (s.raise c).frames = s.frames := rfl
@[simp] theorem State.raise_bytes (c : ErrorCode) (s : State) : (s.raise c).bytes = s.bytes := rfl
@[simp] theorem State.raise_extlen (c : ErrorCode) (s : State) : (s.raise c).extlen = s.extlen := rfl
@[simp] theorem State.raise_ext (c : ErrorCode) (s : State) : (s.raise c).ext = s.ext := rfl
@[simp] theorem State.raise_pb (c : ErrorCode) (s : State) : (s.raise c).pb = s.pb := rfl
@[simp] theorem State.raise_pbCapacity (c : ErrorCode) (s : State) : (s.raise c).pbCapacity = s.pbCapacity := rfl
@[simp] theorem State.raise_port (c : ErrorCode) (s : State) : (s.raise c).port = s.port := rfl
@[simp] theorem State.raise_sinkScript (c : ErrorCode) (s : State) : (s.raise c).sinkScript = s.sinkScript := rfl
@[simp] theorem State.raise_sinkDraws (c : ErrorCode) (s : State) : (s.raise c).sinkDraws = s.sinkDraws := rfl
@[simp] theorem State.raise_out (c : ErrorCode) (s : State) : (s.raise c).out = s.out := rfl
@[simp] theorem State.raise_responses (c : ErrorCode) (s : State) : (s.raise c).responses = s.responses ++ [c.code ++ 0#32] := rfl

end Raise

section Refuse

@[simp] theorem State.refuse_session (s : State) : s.refuse.session = s.session := rfl
@[simp] theorem State.refuse_warn (s : State) : s.refuse.warn = s.warn := rfl
@[simp] theorem State.refuse_err (s : State) : s.refuse.err = s.err := rfl
@[simp] theorem State.refuse_nw (s : State) : s.refuse.nw = s.nw := rfl
@[simp] theorem State.refuse_nh (s : State) : s.refuse.nh = s.nh := rfl
@[simp] theorem State.refuse_frn (s : State) : s.refuse.frn = s.frn := rfl
@[simp] theorem State.refuse_frd (s : State) : s.refuse.frd = s.frd := rfl
@[simp] theorem State.refuse_parn (s : State) : s.refuse.parn = s.parn := rfl
@[simp] theorem State.refuse_pard (s : State) : s.refuse.pard = s.pard := rfl
@[simp] theorem State.refuse_il (s : State) : s.refuse.il = s.il := rfl
@[simp] theorem State.refuse_mode (s : State) : s.refuse.mode = s.mode := rfl
@[simp] theorem State.refuse_ew (s : State) : s.refuse.ew = s.ew := rfl
@[simp] theorem State.refuse_eh (s : State) : s.refuse.eh = s.eh := rfl
@[simp] theorem State.refuse_wp (s : State) : s.refuse.wp = s.wp := rfl
@[simp] theorem State.refuse_frames (s : State) : s.refuse.frames = s.frames := rfl
@[simp] theorem State.refuse_bytes (s : State) : s.refuse.bytes = s.bytes := rfl
@[simp] theorem State.refuse_extlen (s : State) : s.refuse.extlen = s.extlen := rfl
@[simp] theorem State.refuse_ext (s : State) : s.refuse.ext = s.ext := rfl
@[simp] theorem State.refuse_pb (s : State) : s.refuse.pb = s.pb := rfl
@[simp] theorem State.refuse_pbCapacity (s : State) : s.refuse.pbCapacity = s.pbCapacity := rfl
@[simp] theorem State.refuse_port (s : State) : s.refuse.port = s.port := rfl
@[simp] theorem State.refuse_sinkScript (s : State) : s.refuse.sinkScript = s.sinkScript := rfl
@[simp] theorem State.refuse_sinkDraws (s : State) : s.refuse.sinkDraws = s.sinkDraws := rfl
@[simp] theorem State.refuse_out (s : State) : s.refuse.out = s.out := rfl
@[simp] theorem State.refuse_responses (s : State) : s.refuse.responses = s.responses ++ [12#8 ++ 0#32] := rfl

end Refuse

section Toreset

@[simp] theorem State.toReset_session (s : State) : s.toReset.session = .idle := rfl
@[simp] theorem State.toReset_warn (s : State) : s.toReset.warn = false := rfl
@[simp] theorem State.toReset_err (s : State) : s.toReset.err = none := rfl
@[simp] theorem State.toReset_nw (s : State) : s.toReset.nw = 0#32 := rfl
@[simp] theorem State.toReset_nh (s : State) : s.toReset.nh = 0#32 := rfl
@[simp] theorem State.toReset_frn (s : State) : s.toReset.frn = 0#32 := rfl
@[simp] theorem State.toReset_frd (s : State) : s.toReset.frd = 0#32 := rfl
@[simp] theorem State.toReset_parn (s : State) : s.toReset.parn = 1#32 := rfl
@[simp] theorem State.toReset_pard (s : State) : s.toReset.pard = 1#32 := rfl
@[simp] theorem State.toReset_il (s : State) : s.toReset.il = 0x70#8 := rfl
@[simp] theorem State.toReset_mode (s : State) : s.toReset.mode = .c444 := rfl
@[simp] theorem State.toReset_ew (s : State) : s.toReset.ew = 0#32 := rfl
@[simp] theorem State.toReset_eh (s : State) : s.toReset.eh = 0#32 := rfl
@[simp] theorem State.toReset_wp (s : State) : s.toReset.wp = 0#32 := rfl
@[simp] theorem State.toReset_frames (s : State) : s.toReset.frames = 0#32 := rfl
@[simp] theorem State.toReset_bytes (s : State) : s.toReset.bytes = 0#64 := rfl
@[simp] theorem State.toReset_extlen (s : State) : s.toReset.extlen = 0#32 := rfl
@[simp] theorem State.toReset_ext (s : State) : s.toReset.ext = s.ext := rfl
@[simp] theorem State.toReset_pb (s : State) : s.toReset.pb = s.pb := rfl
@[simp] theorem State.toReset_pbCapacity (s : State) : s.toReset.pbCapacity = s.pbCapacity := rfl
@[simp] theorem State.toReset_port (s : State) : s.toReset.port = s.port := rfl
@[simp] theorem State.toReset_sinkScript (s : State) : s.toReset.sinkScript = s.sinkScript := rfl
@[simp] theorem State.toReset_sinkDraws (s : State) : s.toReset.sinkDraws = s.sinkDraws := rfl
@[simp] theorem State.toReset_out (s : State) : s.toReset.out = s.out := rfl
@[simp] theorem State.toReset_responses (s : State) : s.toReset.responses = s.responses := rfl

end Toreset

section Sinktakes

@[simp] theorem State.sinkTakes_session (n : Nat) (bs : List Byte) (s : State) : (s.sinkTakes n bs).session = s.session := rfl
@[simp] theorem State.sinkTakes_warn (n : Nat) (bs : List Byte) (s : State) : (s.sinkTakes n bs).warn = s.warn := rfl
@[simp] theorem State.sinkTakes_err (n : Nat) (bs : List Byte) (s : State) : (s.sinkTakes n bs).err = s.err := rfl
@[simp] theorem State.sinkTakes_nw (n : Nat) (bs : List Byte) (s : State) : (s.sinkTakes n bs).nw = s.nw := rfl
@[simp] theorem State.sinkTakes_nh (n : Nat) (bs : List Byte) (s : State) : (s.sinkTakes n bs).nh = s.nh := rfl
@[simp] theorem State.sinkTakes_frn (n : Nat) (bs : List Byte) (s : State) : (s.sinkTakes n bs).frn = s.frn := rfl
@[simp] theorem State.sinkTakes_frd (n : Nat) (bs : List Byte) (s : State) : (s.sinkTakes n bs).frd = s.frd := rfl
@[simp] theorem State.sinkTakes_parn (n : Nat) (bs : List Byte) (s : State) : (s.sinkTakes n bs).parn = s.parn := rfl
@[simp] theorem State.sinkTakes_pard (n : Nat) (bs : List Byte) (s : State) : (s.sinkTakes n bs).pard = s.pard := rfl
@[simp] theorem State.sinkTakes_il (n : Nat) (bs : List Byte) (s : State) : (s.sinkTakes n bs).il = s.il := rfl
@[simp] theorem State.sinkTakes_mode (n : Nat) (bs : List Byte) (s : State) : (s.sinkTakes n bs).mode = s.mode := rfl
@[simp] theorem State.sinkTakes_ew (n : Nat) (bs : List Byte) (s : State) : (s.sinkTakes n bs).ew = s.ew := rfl
@[simp] theorem State.sinkTakes_eh (n : Nat) (bs : List Byte) (s : State) : (s.sinkTakes n bs).eh = s.eh := rfl
@[simp] theorem State.sinkTakes_wp (n : Nat) (bs : List Byte) (s : State) : (s.sinkTakes n bs).wp = s.wp := rfl
@[simp] theorem State.sinkTakes_frames (n : Nat) (bs : List Byte) (s : State) : (s.sinkTakes n bs).frames = s.frames := rfl
@[simp] theorem State.sinkTakes_bytes (n : Nat) (bs : List Byte) (s : State) : (s.sinkTakes n bs).bytes = s.bytes + BitVec.ofNat 64 n := rfl
@[simp] theorem State.sinkTakes_extlen (n : Nat) (bs : List Byte) (s : State) : (s.sinkTakes n bs).extlen = s.extlen := rfl
@[simp] theorem State.sinkTakes_ext (n : Nat) (bs : List Byte) (s : State) : (s.sinkTakes n bs).ext = s.ext := rfl
@[simp] theorem State.sinkTakes_pb (n : Nat) (bs : List Byte) (s : State) : (s.sinkTakes n bs).pb = s.pb := rfl
@[simp] theorem State.sinkTakes_pbCapacity (n : Nat) (bs : List Byte) (s : State) : (s.sinkTakes n bs).pbCapacity = s.pbCapacity := rfl
@[simp] theorem State.sinkTakes_port (n : Nat) (bs : List Byte) (s : State) : (s.sinkTakes n bs).port = s.port := rfl
@[simp] theorem State.sinkTakes_sinkScript (n : Nat) (bs : List Byte) (s : State) : (s.sinkTakes n bs).sinkScript = s.sinkScript.tail := rfl
@[simp] theorem State.sinkTakes_sinkDraws (n : Nat) (bs : List Byte) (s : State) : (s.sinkTakes n bs).sinkDraws = s.sinkDraws + 1 := rfl
@[simp] theorem State.sinkTakes_out (n : Nat) (bs : List Byte) (s : State) : (s.sinkTakes n bs).out = s.out ++ bs.take n := rfl
@[simp] theorem State.sinkTakes_responses (n : Nat) (bs : List Byte) (s : State) : (s.sinkTakes n bs).responses = s.responses := rfl

end Sinktakes

section Startsession

@[simp] theorem State.startSession_session (m : Mode) (w h : Nat) (s : State) : (s.startSession m w h).session = .opened := rfl
@[simp] theorem State.startSession_warn (m : Mode) (w h : Nat) (s : State) : (s.startSession m w h).warn = m.advisory := rfl
@[simp] theorem State.startSession_err (m : Mode) (w h : Nat) (s : State) : (s.startSession m w h).err = s.err := rfl
@[simp] theorem State.startSession_nw (m : Mode) (w h : Nat) (s : State) : (s.startSession m w h).nw = s.nw := rfl
@[simp] theorem State.startSession_nh (m : Mode) (w h : Nat) (s : State) : (s.startSession m w h).nh = s.nh := rfl
@[simp] theorem State.startSession_frn (m : Mode) (w h : Nat) (s : State) : (s.startSession m w h).frn = s.frn := rfl
@[simp] theorem State.startSession_frd (m : Mode) (w h : Nat) (s : State) : (s.startSession m w h).frd = s.frd := rfl
@[simp] theorem State.startSession_parn (m : Mode) (w h : Nat) (s : State) : (s.startSession m w h).parn = s.parn := rfl
@[simp] theorem State.startSession_pard (m : Mode) (w h : Nat) (s : State) : (s.startSession m w h).pard = s.pard := rfl
@[simp] theorem State.startSession_il (m : Mode) (w h : Nat) (s : State) : (s.startSession m w h).il = s.il := rfl
@[simp] theorem State.startSession_mode (m : Mode) (w h : Nat) (s : State) : (s.startSession m w h).mode = m := rfl
@[simp] theorem State.startSession_ew (m : Mode) (w h : Nat) (s : State) : (s.startSession m w h).ew = BitVec.ofNat 32 w := rfl
@[simp] theorem State.startSession_eh (m : Mode) (w h : Nat) (s : State) : (s.startSession m w h).eh = BitVec.ofNat 32 h := rfl
@[simp] theorem State.startSession_wp (m : Mode) (w h : Nat) (s : State) : (s.startSession m w h).wp = 0#32 := rfl
@[simp] theorem State.startSession_frames (m : Mode) (w h : Nat) (s : State) : (s.startSession m w h).frames = 0#32 := rfl
@[simp] theorem State.startSession_bytes (m : Mode) (w h : Nat) (s : State) : (s.startSession m w h).bytes = 0#64 := rfl
@[simp] theorem State.startSession_extlen (m : Mode) (w h : Nat) (s : State) : (s.startSession m w h).extlen = s.extlen := rfl
@[simp] theorem State.startSession_ext (m : Mode) (w h : Nat) (s : State) : (s.startSession m w h).ext = s.ext := rfl
@[simp] theorem State.startSession_pb (m : Mode) (w h : Nat) (s : State) : (s.startSession m w h).pb = s.pb := rfl
@[simp] theorem State.startSession_pbCapacity (m : Mode) (w h : Nat) (s : State) : (s.startSession m w h).pbCapacity = s.pbCapacity := rfl
@[simp] theorem State.startSession_port (m : Mode) (w h : Nat) (s : State) : (s.startSession m w h).port = s.port := rfl
@[simp] theorem State.startSession_sinkScript (m : Mode) (w h : Nat) (s : State) : (s.startSession m w h).sinkScript = s.sinkScript := rfl
@[simp] theorem State.startSession_sinkDraws (m : Mode) (w h : Nat) (s : State) : (s.startSession m w h).sinkDraws = s.sinkDraws := rfl
@[simp] theorem State.startSession_out (m : Mode) (w h : Nat) (s : State) : (s.startSession m w h).out = s.out := rfl
@[simp] theorem State.startSession_responses (m : Mode) (w h : Nat) (s : State) : (s.startSession m w h).responses = s.responses := rfl

end Startsession

section Pushpixel

@[simp] theorem State.pushPixel_session (p : Pixel) (s : State) : (s.pushPixel p).session = s.session := rfl
@[simp] theorem State.pushPixel_warn (p : Pixel) (s : State) : (s.pushPixel p).warn = s.warn := rfl
@[simp] theorem State.pushPixel_err (p : Pixel) (s : State) : (s.pushPixel p).err = s.err := rfl
@[simp] theorem State.pushPixel_nw (p : Pixel) (s : State) : (s.pushPixel p).nw = s.nw := rfl
@[simp] theorem State.pushPixel_nh (p : Pixel) (s : State) : (s.pushPixel p).nh = s.nh := rfl
@[simp] theorem State.pushPixel_frn (p : Pixel) (s : State) : (s.pushPixel p).frn = s.frn := rfl
@[simp] theorem State.pushPixel_frd (p : Pixel) (s : State) : (s.pushPixel p).frd = s.frd := rfl
@[simp] theorem State.pushPixel_parn (p : Pixel) (s : State) : (s.pushPixel p).parn = s.parn := rfl
@[simp] theorem State.pushPixel_pard (p : Pixel) (s : State) : (s.pushPixel p).pard = s.pard := rfl
@[simp] theorem State.pushPixel_il (p : Pixel) (s : State) : (s.pushPixel p).il = s.il := rfl
@[simp] theorem State.pushPixel_mode (p : Pixel) (s : State) : (s.pushPixel p).mode = s.mode := rfl
@[simp] theorem State.pushPixel_ew (p : Pixel) (s : State) : (s.pushPixel p).ew = s.ew := rfl
@[simp] theorem State.pushPixel_eh (p : Pixel) (s : State) : (s.pushPixel p).eh = s.eh := rfl
@[simp] theorem State.pushPixel_wp (p : Pixel) (s : State) : (s.pushPixel p).wp = s.wp + 1#32 := rfl
@[simp] theorem State.pushPixel_frames (p : Pixel) (s : State) : (s.pushPixel p).frames = s.frames := rfl
@[simp] theorem State.pushPixel_bytes (p : Pixel) (s : State) : (s.pushPixel p).bytes = s.bytes := rfl
@[simp] theorem State.pushPixel_extlen (p : Pixel) (s : State) : (s.pushPixel p).extlen = s.extlen := rfl
@[simp] theorem State.pushPixel_ext (p : Pixel) (s : State) : (s.pushPixel p).ext = s.ext := rfl
@[simp] theorem State.pushPixel_pb (p : Pixel) (s : State) : (s.pushPixel p).pb = Memory.write Memory.blankPixel s.wp.toNat p s.pb := rfl
@[simp] theorem State.pushPixel_pbCapacity (p : Pixel) (s : State) : (s.pushPixel p).pbCapacity = s.pbCapacity := rfl
@[simp] theorem State.pushPixel_port (p : Pixel) (s : State) : (s.pushPixel p).port = s.port := rfl
@[simp] theorem State.pushPixel_sinkScript (p : Pixel) (s : State) : (s.pushPixel p).sinkScript = s.sinkScript := rfl
@[simp] theorem State.pushPixel_sinkDraws (p : Pixel) (s : State) : (s.pushPixel p).sinkDraws = s.sinkDraws := rfl
@[simp] theorem State.pushPixel_out (p : Pixel) (s : State) : (s.pushPixel p).out = s.out := rfl
@[simp] theorem State.pushPixel_responses (p : Pixel) (s : State) : (s.pushPixel p).responses = s.responses := rfl

end Pushpixel

section Finishframe

@[simp] theorem State.finishFrame_session (s : State) : s.finishFrame.session = s.session := rfl
@[simp] theorem State.finishFrame_warn (s : State) : s.finishFrame.warn = s.warn := rfl
@[simp] theorem State.finishFrame_err (s : State) : s.finishFrame.err = s.err := rfl
@[simp] theorem State.finishFrame_nw (s : State) : s.finishFrame.nw = s.nw := rfl
@[simp] theorem State.finishFrame_nh (s : State) : s.finishFrame.nh = s.nh := rfl
@[simp] theorem State.finishFrame_frn (s : State) : s.finishFrame.frn = s.frn := rfl
@[simp] theorem State.finishFrame_frd (s : State) : s.finishFrame.frd = s.frd := rfl
@[simp] theorem State.finishFrame_parn (s : State) : s.finishFrame.parn = s.parn := rfl
@[simp] theorem State.finishFrame_pard (s : State) : s.finishFrame.pard = s.pard := rfl
@[simp] theorem State.finishFrame_il (s : State) : s.finishFrame.il = s.il := rfl
@[simp] theorem State.finishFrame_mode (s : State) : s.finishFrame.mode = s.mode := rfl
@[simp] theorem State.finishFrame_ew (s : State) : s.finishFrame.ew = s.ew := rfl
@[simp] theorem State.finishFrame_eh (s : State) : s.finishFrame.eh = s.eh := rfl
@[simp] theorem State.finishFrame_wp (s : State) : s.finishFrame.wp = 0#32 := rfl
@[simp] theorem State.finishFrame_frames (s : State) : s.finishFrame.frames = s.frames + 1#32 := rfl
@[simp] theorem State.finishFrame_bytes (s : State) : s.finishFrame.bytes = s.bytes := rfl
@[simp] theorem State.finishFrame_extlen (s : State) : s.finishFrame.extlen = s.extlen := rfl
@[simp] theorem State.finishFrame_ext (s : State) : s.finishFrame.ext = s.ext := rfl
@[simp] theorem State.finishFrame_pb (s : State) : s.finishFrame.pb = s.pb := rfl
@[simp] theorem State.finishFrame_pbCapacity (s : State) : s.finishFrame.pbCapacity = s.pbCapacity := rfl
@[simp] theorem State.finishFrame_port (s : State) : s.finishFrame.port = s.port := rfl
@[simp] theorem State.finishFrame_sinkScript (s : State) : s.finishFrame.sinkScript = s.sinkScript := rfl
@[simp] theorem State.finishFrame_sinkDraws (s : State) : s.finishFrame.sinkDraws = s.sinkDraws := rfl
@[simp] theorem State.finishFrame_out (s : State) : s.finishFrame.out = s.out := rfl
@[simp] theorem State.finishFrame_responses (s : State) : s.finishFrame.responses = s.responses := rfl

end Finishframe

section PushExt

@[simp] theorem State.pushExt_session (c : Byte) (s : State) : (s.pushExt c).session = s.session := by unfold State.pushExt; split <;> rfl
@[simp] theorem State.pushExt_warn (c : Byte) (s : State) : (s.pushExt c).warn = s.warn := by unfold State.pushExt; split <;> rfl
@[simp] theorem State.pushExt_err (c : Byte) (s : State) : (s.pushExt c).err = s.err := by unfold State.pushExt; split <;> rfl
@[simp] theorem State.pushExt_nw (c : Byte) (s : State) : (s.pushExt c).nw = s.nw := by unfold State.pushExt; split <;> rfl
@[simp] theorem State.pushExt_nh (c : Byte) (s : State) : (s.pushExt c).nh = s.nh := by unfold State.pushExt; split <;> rfl
@[simp] theorem State.pushExt_frn (c : Byte) (s : State) : (s.pushExt c).frn = s.frn := by unfold State.pushExt; split <;> rfl
@[simp] theorem State.pushExt_frd (c : Byte) (s : State) : (s.pushExt c).frd = s.frd := by unfold State.pushExt; split <;> rfl
@[simp] theorem State.pushExt_parn (c : Byte) (s : State) : (s.pushExt c).parn = s.parn := by unfold State.pushExt; split <;> rfl
@[simp] theorem State.pushExt_pard (c : Byte) (s : State) : (s.pushExt c).pard = s.pard := by unfold State.pushExt; split <;> rfl
@[simp] theorem State.pushExt_il (c : Byte) (s : State) : (s.pushExt c).il = s.il := by unfold State.pushExt; split <;> rfl
@[simp] theorem State.pushExt_mode (c : Byte) (s : State) : (s.pushExt c).mode = s.mode := by unfold State.pushExt; split <;> rfl
@[simp] theorem State.pushExt_ew (c : Byte) (s : State) : (s.pushExt c).ew = s.ew := by unfold State.pushExt; split <;> rfl
@[simp] theorem State.pushExt_eh (c : Byte) (s : State) : (s.pushExt c).eh = s.eh := by unfold State.pushExt; split <;> rfl
@[simp] theorem State.pushExt_wp (c : Byte) (s : State) : (s.pushExt c).wp = s.wp := by unfold State.pushExt; split <;> rfl
@[simp] theorem State.pushExt_frames (c : Byte) (s : State) : (s.pushExt c).frames = s.frames := by unfold State.pushExt; split <;> rfl
@[simp] theorem State.pushExt_bytes (c : Byte) (s : State) : (s.pushExt c).bytes = s.bytes := by unfold State.pushExt; split <;> rfl
@[simp] theorem State.pushExt_pb (c : Byte) (s : State) : (s.pushExt c).pb = s.pb := by unfold State.pushExt; split <;> rfl
@[simp] theorem State.pushExt_pbCapacity (c : Byte) (s : State) : (s.pushExt c).pbCapacity = s.pbCapacity := by unfold State.pushExt; split <;> rfl
@[simp] theorem State.pushExt_port (c : Byte) (s : State) : (s.pushExt c).port = s.port := by unfold State.pushExt; split <;> rfl
@[simp] theorem State.pushExt_sinkScript (c : Byte) (s : State) : (s.pushExt c).sinkScript = s.sinkScript := by unfold State.pushExt; split <;> rfl
@[simp] theorem State.pushExt_sinkDraws (c : Byte) (s : State) : (s.pushExt c).sinkDraws = s.sinkDraws := by unfold State.pushExt; split <;> rfl
@[simp] theorem State.pushExt_out (c : Byte) (s : State) : (s.pushExt c).out = s.out := by unfold State.pushExt; split <;> rfl
@[simp] theorem State.pushExt_responses (c : Byte) (s : State) : (s.pushExt c).responses = s.responses := by unfold State.pushExt; split <;> rfl

theorem State.pushExt_stored (c : Byte) (s : State) (h : s.extlen.toNat < 200) :
    s.pushExt c = { s with
      ext := Memory.write Memory.blankByte s.extlen.toNat c s.ext
      extlen := s.extlen + 1#32 } := if_pos h

theorem State.pushExt_dropped (c : Byte) (s : State) (h : 200 ≤ s.extlen.toNat) :
    s.pushExt c = { s with extlen := 201#32 } := if_neg (Nat.not_lt.mpr h)

end PushExt

end Sys2Proof.Machine
end

