-- ==== Sys2Proof/Laws/Ops.lean ====
section
/-! SUPPORT. For each shared operation, what it can answer, said once. -/

namespace Sys2Proof.Machine

variable {s t : State} {run : State → Result}

@[simp] theorem whenIdle_idle (h : s.session = .idle) : whenIdle run s = run s := by simp [whenIdle, h]

@[simp] theorem whenIdle_opened (h : s.session = .opened) : whenIdle run s = .next (s.raise .sequence) := by
  simp [whenIdle, h]

@[simp] theorem whenIdle_failed (h : s.session = .failed) : whenIdle run s = .next s.refuse := by simp [whenIdle, h]

@[simp] theorem whenOpened_idle (h : s.session = .idle) : whenOpened run s = .next (s.raise .sequence) := by
  simp [whenOpened, h]

@[simp] theorem whenOpened_opened (h : s.session = .opened) : whenOpened run s = run s := by simp [whenOpened, h]

@[simp] theorem whenOpened_failed (h : s.session = .failed) : whenOpened run s = .next s.refuse := by simp [whenOpened, h]

@[simp] theorem whenNotFailed_live (h : s.session ≠ .failed) : whenNotFailed run s = run s := by
  cases hs : s.session <;> simp_all [whenNotFailed]

@[simp] theorem whenNotFailed_failed (h : s.session = .failed) : whenNotFailed run s = .next s.refuse := by
  simp [whenNotFailed, h]

/-- What a command legal in IDLE only can do. -/
theorem whenIdle_next (h : whenIdle run s = .next t) :
    (s.session = .idle ∧ run s = .next t) ∨ (s.session = .opened ∧ t = s.raise .sequence)
      ∨ (s.session = .failed ∧ t = s.refuse) := by
  cases hs : s.session <;> simp_all [whenIdle]

/-- What a command legal in OPEN only can do. -/
theorem whenOpened_next (h : whenOpened run s = .next t) :
    (s.session = .idle ∧ t = s.raise .sequence) ∨ (s.session = .opened ∧ run s = .next t)
      ∨ (s.session = .failed ∧ t = s.refuse) := by
  cases hs : s.session <;> simp_all [whenOpened]

/-- What a command legal in IDLE and OPEN can do. -/
theorem whenNotFailed_next (h : whenNotFailed run s = .next t) :
    (s.session ≠ .failed ∧ run s = .next t) ∨ (s.session = .failed ∧ t = s.refuse) := by
  cases hs : s.session <;> simp_all [whenNotFailed]

theorem rejectMalformed_live (h : s.session ≠ .failed) : s.rejectMalformed = s.raise .illegalCommand := by
  cases hs : s.session <;> simp_all [State.rejectMalformed]

theorem rejectMalformed_failed (h : s.session = .failed) : s.rejectMalformed = s.respond 8#8 0#32 := by
  simp [State.rejectMalformed, h, ErrorCode.code]

theorem rejectIllegal_live (op : Byte) (h : s.session ≠ .failed) : s.rejectIllegal op = s.raise .illegalCommand := by
  cases hs : s.session <;> simp_all [State.rejectIllegal]

theorem rejectIllegal_failed (op : Byte) (h : s.session = .failed) :
    s.rejectIllegal op = if op = 0x30#8 ∨ op = 0x3F#8 then s.respond 8#8 0#32 else s.refuse := by
  simp only [State.rejectIllegal, h, rejectMalformed_failed h]

@[simp] theorem accepted_takesAll (len : Nat) : SinkAnswer.takesAll.accepted len = len := rfl

@[simp] theorem accepted_takes (n len : Nat) : (SinkAnswer.takes n).accepted len = min n len := rfl

/-- The sink takes no more than it is offered (20_memory R58: 0 <= n <= L). -/
theorem accepted_le (a : SinkAnswer) (len : Nat) : a.accepted len ≤ len := by
  cases a with
  | takesAll => exact Nat.le_refl len
  | takes n => exact Nat.min_le_right n len

/-- Every count up to what is offered is some answer of the sink (20_memory R58). -/
theorem accepted_any {n len : Nat} (h : n ≤ len) : (SinkAnswer.takes n).accepted len = n := Nat.min_eq_left h

/-- What an emission can do: the sink stops short and IoError is raised after the accepted prefix, or it takes all and the rest of
the command goes on. -/
theorem emit_next {bs : List Byte} (h : emit bs run s = .next t) :
    (s.sinkAnswer.accepted bs.length < bs.length
        ∧ t = (s.sinkTakes (s.sinkAnswer.accepted bs.length) bs).raise .io)
      ∨ (s.sinkAnswer.accepted bs.length = bs.length ∧ run (s.sinkTakes bs.length bs) = .next t) := by
  unfold emit at h
  by_cases hlt : s.sinkAnswer.accepted bs.length < bs.length
  · exact .inl ⟨hlt, by simpa [hlt] using h.symm⟩
  · have heq : s.sinkAnswer.accepted bs.length = bs.length := Nat.le_antisymm (accepted_le _ _) (Nat.le_of_not_lt hlt)
    exact .inr ⟨heq, by simpa [heq] using h⟩

theorem emit_all {bs : List Byte} (h : s.sinkAnswer.accepted bs.length = bs.length) :
    emit bs run s = run (s.sinkTakes bs.length bs) := by
  simp [emit, h]

theorem emit_short {bs : List Byte} (h : s.sinkAnswer.accepted bs.length < bs.length) :
    emit bs run s = .next ((s.sinkTakes (s.sinkAnswer.accepted bs.length) bs).raise .io) := by
  simp [emit, h]

end Sys2Proof.Machine
end

