-- ==== Sys2Proof/Laws/PerInstr.lean ====
section
/-! SUPPORT. Statements about every command as syntax, one lemma per constructor. -/

namespace Sys2Proof.Laws.LegalWord

/-- The command's word has an assigned opcode and no reserved operand bit set (30_encoding R75, R76). -/
def Statement (i : Instr) : Prop :=
  ∃ (form : Form) (make : Word → Instr),
    operation (opOf (encode i)) = some (form, make) ∧ form.accepts (argOf (encode i)) = true

/-- A command word whose opcode has the form `form`, with an operand below the form's bound. -/
theorem of_word {i : Instr} {op : Byte} {arg : Word} {form : Form} {make : Word → Instr} (hword : encode i = op ++ arg)
    (hop : operation op = some (form, make)) (harg : arg.toNat < form.operandBound) : Statement i := by
  refine ⟨form, make, ?_, ?_⟩
  · rw [hword, opOf_word, hop]
  · rw [hword, argOf_word, Form.accepts_iff]; exact harg

theorem byte_lt (c : Byte) : (c.setWidth 32 : Word).toNat < 256 := by
  rw [BitVec.toNat_setWidth]; have := c.isLt; omega

theorem pixel_lt (p : Pixel) : (packPixel p).toNat < 2 ^ 24 := by
  rw [toNat_packPixel]; have := p.r.isLt; have := p.g.isLt; have := p.b.isLt; omega

theorem setnw (v : Word) : Statement (.setnw v) := of_word rfl rfl v.isLt
theorem setnh (v : Word) : Statement (.setnh v) := of_word rfl rfl v.isLt
theorem setfrn (v : Word) : Statement (.setfrn v) := of_word rfl rfl v.isLt
theorem setfrd (v : Word) : Statement (.setfrd v) := of_word rfl rfl v.isLt
theorem setparn (v : Word) : Statement (.setparn v) := of_word rfl rfl v.isLt
theorem setpard (v : Word) : Statement (.setpard v) := of_word rfl rfl v.isLt
theorem setil (c : Byte) : Statement (.setil c) := of_word rfl rfl (byte_lt c)
theorem extclr : Statement .extclr := of_word rfl rfl (by decide)
theorem extb (c : Byte) : Statement (.extb c) := of_word rfl rfl (byte_lt c)
theorem openC444 : Statement .openC444 := of_word rfl rfl (by decide)
theorem openC422 : Statement .openC422 := of_word rfl rfl (by decide)
theorem openC420 : Statement .openC420 := of_word rfl rfl (by decide)
theorem openC411 : Statement .openC411 := of_word rfl rfl (by decide)
theorem openC410 : Statement .openC410 := of_word rfl rfl (by decide)
theorem openBadmode (m : Byte) : Statement (.openBadmode m) := of_word rfl rfl (byte_lt m)
theorem pix (p : Pixel) : Statement (.pix p) := of_word rfl rfl (pixel_lt p)
theorem frame : Statement .frame := of_word rfl rfl (by decide)
theorem close : Statement .close := of_word rfl rfl (by decide)
theorem abort (c : Byte) : Statement (.abort c) := of_word rfl rfl (byte_lt c)
theorem rd (k : Byte) : Statement (.rd k) := of_word rfl rfl (byte_lt k)
theorem conv (p : Pixel) : Statement (.conv p) := of_word rfl rfl (pixel_lt p)
theorem reset : Statement .reset := of_word rfl rfl (by decide)

end Sys2Proof.Laws.LegalWord
end

