-- ==== Sys2Proof/Laws/Pictures.lean ====
section
/-! SUPPORT. The small laws of the pure part: rounding as a number, the length and the places of a plane, when the extension is
emitted. -/

namespace Sys2Proof.Machine

/-- A rounded sample as a number: the cap keeps it in 8 bits (41_colour_converter R102). -/
theorem rounded_toNat (sum : Int) (k : Nat) : (rounded sum k).toNat = (min 255 ((sum + 500 * k) / (1000 * k))).toNat := by
  simp only [rounded, roundedNat, BitVec.toNat_ofNat]
  omega

@[simp] theorem plane_length (rows cols : Nat) (sample : Nat → Nat → Byte) : (plane rows cols sample).length = rows * cols := by
  simp [plane, List.length_flatMap]

/-- Where a plane holds the sample of row `i` and column `j` (42_subsampler R123). -/
theorem plane_get {rows cols i j : Nat} (sample : Nat → Nat → Byte) (hi : i < rows) (hj : j < cols) :
    (plane rows cols sample)[i * cols + j]? = some (sample i j) := by
  induction rows with
  | zero => omega
  | succ rows ih =>
    have hsplit : plane (rows + 1) cols sample = plane rows cols sample ++ (List.range cols).map (sample rows) := by
      simp [plane, List.range_succ]
    rw [hsplit]
    by_cases h : i < rows
    · have hin : i * cols + j < rows * cols :=
        calc i * cols + j < (i + 1) * cols := by rw [Nat.succ_mul]; omega
          _ ≤ rows * cols := Nat.mul_le_mul_right _ h
      rw [List.getElem?_append_left (by rw [plane_length]; exact hin), ih h]
    · obtain rfl : i = rows := by omega
      rw [List.getElem?_append_right (by rw [plane_length]; omega), plane_length]
      simp [hj]

/-- EXTOK (43_y4m_framer R144) as a proposition. -/
theorem extOk_iff (s : State) : s.extOk = true ↔
    1 ≤ s.extlen.toNat ∧ s.extlen.toNat ≤ 200
      ∧ ∀ i, i < s.extlen.toNat → 0x21 ≤ (s.extAt i).toNat ∧ (s.extAt i).toNat ≤ 0x7E := by
  rw [State.extOk, show Config.extMax = 200 from rfl, Bool.and_eq_true, Bool.and_eq_true, List.all_eq_true, decide_eq_true_eq,
    decide_eq_true_eq, and_assoc]
  simp [State.extBytes]

end Sys2Proof.Machine
end

