-- ==== Sys2Proof/Laws/Step.lean ====
section
/-! SUPPORT. Everything a command and a step can do, said once (`exec_took`, `step_cases`): later proofs about all next states split
on these and do not unfold the meanings. -/

namespace Sys2Proof.Machine

/-- `Took s i t`: the ways in which command `i` takes state `s` to `t`. -/
inductive Took (s : State) : Instr → State → Prop
  /-- Refused in FAILED (60_exceptions R212). -/
  | refused (i : Instr) (h : s.session = .failed) : Took s i s.refuse
  /-- A fault before anything changed (60_exceptions R210, R211). -/
  | faulted (i : Instr) (c : ErrorCode) (h : s.session ≠ .failed) (row : c ∈ possibleFaults i) (precise : c ≠ .io) :
      Took s i (s.raise c)
  /-- RD with a bad index in FAILED (44_session_commands R183). -/
  | badIndex (k : Byte) (h : s.session = .failed) : Took s (.rd k) (s.respond 8#8 0#32)
  | setnw (v : Word) (h : s.session = .idle) : Took s (.setnw v) (State.done 0#32 { s with nw := v })
  | setnh (v : Word) (h : s.session = .idle) : Took s (.setnh v) (State.done 0#32 { s with nh := v })
  | setfrn (v : Word) (h : s.session = .idle) : Took s (.setfrn v) (State.done 0#32 { s with frn := v })
  | setfrd (v : Word) (h : s.session = .idle) : Took s (.setfrd v) (State.done 0#32 { s with frd := v })
  | setparn (v : Word) (h : s.session = .idle) : Took s (.setparn v) (State.done 0#32 { s with parn := v })
  | setpard (v : Word) (h : s.session = .idle) : Took s (.setpard v) (State.done 0#32 { s with pard := v })
  | setil (c : Byte) (h : s.session = .idle) : Took s (.setil c) (State.done 0#32 { s with il := c })
  | extclr (h : s.session = .idle) : Took s .extclr (State.done 0#32 { s with extlen := 0#32 })
  | extb (c : Byte) (h : s.session = .idle) : Took s (.extb c) (State.done 0#32 (s.pushExt c))
  /-- OPEN whose header the sink took whole (44_session_commands R172). -/
  | opened (m : Mode) (u : State) (h : s.session = .idle) (ok : s.canOpen m)
      (hu : u = s.startSession m (cropWidth m s.nw) (cropHeight m s.nh))
      (all : u.sinkAnswer.accepted (header u).length = (header u).length) :
      Took s (openInstr m)
        ((u.sinkTakes (header u).length (header u)).done (u.sinkTakes (header u).length (header u)).warnWord)
  /-- OPEN whose header the sink did not take whole (44_session_commands R172, 20_memory R58). -/
  | openShort (m : Mode) (u : State) (h : s.session = .idle) (ok : s.canOpen m)
      (hu : u = s.startSession m (cropWidth m s.nw) (cropHeight m s.nh))
      (short : u.sinkAnswer.accepted (header u).length < (header u).length) :
      Took s (openInstr m) ((u.sinkTakes (u.sinkAnswer.accepted (header u).length) (header u)).raise .io)
  | pix (p : Pixel) (h : s.session = .opened) (room : s.wp.toNat ≠ s.pictureSize) (inside : s.wp.toNat < s.pbCapacity) :
      Took s (.pix p) (State.done 0#32 (s.pushPixel p))
  /-- FRAME whose bytes the sink took whole (44_session_commands R180). -/
  | frame (h : s.session = .opened) (full : s.wp.toNat = s.pictureSize) (inside : s.pictureSize ≤ s.pbCapacity)
      (all : s.sinkAnswer.accepted s.frameBytes.length = s.frameBytes.length) :
      Took s .frame (State.done 0#32 (s.sinkTakes s.frameBytes.length s.frameBytes).finishFrame)
  /-- FRAME whose bytes the sink did not take whole (44_session_commands R180, 20_memory R58). -/
  | frameShort (h : s.session = .opened) (full : s.wp.toNat = s.pictureSize) (inside : s.pictureSize ≤ s.pbCapacity)
      (short : s.sinkAnswer.accepted s.frameBytes.length < s.frameBytes.length) :
      Took s .frame ((s.sinkTakes (s.sinkAnswer.accepted s.frameBytes.length) s.frameBytes).raise .io)
  | close (h : s.session = .opened) (empty : s.wp = 0#32) : Took s .close (State.done 0#32 { s with session := .idle })
  | rd (k : Byte) (r : ControlReg) (h : ControlReg.ofIndex k = some r) : Took s (.rd k) (s.done (s.readReg r))
  | conv (p : Pixel) (h : s.session ≠ .failed) :
      Took s (.conv p) (s.done (packSamples (luma p) (chromaBlue p) (chromaRed p)))
  | reset : Took s .reset (State.done 0#32 s.toReset)

/-- What OPEN's steps 2 to 8 can do (44_session_commands R172). -/
theorem openSession_took {s t : State} {m : Mode} (hi : s.session = .idle) (h : openSession m s = .next t) :
    Took s (openInstr m) t := by
  have hlive : s.session ≠ .failed := by simp [hi]
  simp only [openSession] at h
  split at h
  · cases h; exact .faulted _ _ hlive (by cases m <;> simp [openInstr, possibleFaults]) (by simp)
  · rename_i hzero
    split at h
    · cases h; exact .faulted _ _ hlive (by cases m <;> simp [openInstr, possibleFaults]) (by simp)
    · rename_i hbad
      split at h
      · cases h; exact .faulted _ _ hlive (by cases m <;> simp [openInstr, possibleFaults]) (by simp)
      · rename_i hcap
        have ok : s.canOpen m := by
          push Not at hzero
          exact ⟨hzero.1, hzero.2, by simpa using hbad, Nat.le_of_not_lt hcap⟩
        rcases emit_next h with ⟨hlt, rfl⟩ | ⟨heq, ht⟩
        · exact .openShort m _ hi ok rfl hlt
        · cases ht; exact .opened m _ hi ok rfl heq

theorem exec_openInstr (m : Mode) (s : State) : exec (openInstr m) s = whenIdle (openSession m) s := by cases m <;> rfl

theorem exec_openInstr_took {s t : State} {m : Mode} (h : exec (openInstr m) s = .next t) : Took s (openInstr m) t := by
  rw [exec_openInstr] at h
  rcases whenIdle_next h with ⟨hi, h⟩ | ⟨ho, rfl⟩ | ⟨hf, rfl⟩
  · exact openSession_took hi h
  · exact .faulted _ _ (by simp [ho]) (by cases m <;> simp [openInstr, possibleFaults]) (by simp)
  · exact .refused _ hf

/-- A command legal in IDLE only, in the terms of `Took`. -/
theorem took_of_whenIdle {s t : State} {i : Instr} {run : State → Result} (h : whenIdle run s = .next t)
    (row : ErrorCode.sequence ∈ possibleFaults i)
    (hrun : s.session = .idle → run s = .next t → Took s i t) : Took s i t := by
  rcases whenIdle_next h with ⟨hi, h⟩ | ⟨ho, rfl⟩ | ⟨hf, rfl⟩
  · exact hrun hi h
  · exact .faulted _ _ (by simp [ho]) row (by simp)
  · exact .refused _ hf

/-- A command legal in OPEN only, in the terms of `Took`. -/
theorem took_of_whenOpened {s t : State} {i : Instr} {run : State → Result} (h : whenOpened run s = .next t)
    (row : ErrorCode.sequence ∈ possibleFaults i)
    (hrun : s.session = .opened → run s = .next t → Took s i t) : Took s i t := by
  rcases whenOpened_next h with ⟨hi, rfl⟩ | ⟨ho, h⟩ | ⟨hf, rfl⟩
  · exact .faulted _ _ (by simp [hi]) row (by simp)
  · exact hrun ho h
  · exact .refused _ hf

/-- Everything a command can do: one of the cases of `Took`. -/
theorem exec_took {s t : State} {i : Instr} (h : exec i s = .next t) : Took s i t := by
  cases i with
  | setnw v => unfold exec execSetnw at h; exact took_of_whenIdle h (by simp [possibleFaults]) fun hi h => by cases h; exact .setnw v hi
  | setnh v => unfold exec execSetnh at h; exact took_of_whenIdle h (by simp [possibleFaults]) fun hi h => by cases h; exact .setnh v hi
  | setfrn v => unfold exec execSetfrn at h; exact took_of_whenIdle h (by simp [possibleFaults]) fun hi h => by cases h; exact .setfrn v hi
  | setfrd v => unfold exec execSetfrd at h; exact took_of_whenIdle h (by simp [possibleFaults]) fun hi h => by cases h; exact .setfrd v hi
  | setparn v => unfold exec execSetparn at h; exact took_of_whenIdle h (by simp [possibleFaults]) fun hi h => by cases h; exact .setparn v hi
  | setpard v => unfold exec execSetpard at h; exact took_of_whenIdle h (by simp [possibleFaults]) fun hi h => by cases h; exact .setpard v hi
  | setil c => unfold exec execSetil at h; exact took_of_whenIdle h (by simp [possibleFaults]) fun hi h => by cases h; exact .setil c hi
  | extclr => unfold exec execExtclr at h; exact took_of_whenIdle h (by simp [possibleFaults]) fun hi h => by cases h; exact .extclr hi
  | extb c => unfold exec execExtb at h; exact took_of_whenIdle h (by simp [possibleFaults]) fun hi h => by cases h; exact .extb c hi
  | openC444 => exact exec_openInstr_took (m := .c444) h
  | openC422 => exact exec_openInstr_took (m := .c422) h
  | openC420 => exact exec_openInstr_took (m := .c420) h
  | openC411 => exact exec_openInstr_took (m := .c411) h
  | openC410 => exact exec_openInstr_took (m := .c410) h
  | openBadmode m => unfold exec execOpenBadmode at h; exact took_of_whenIdle h (by simp [possibleFaults]) fun hi h => by cases h; exact .faulted _ _ (by simp [hi]) (by simp [possibleFaults]) (by simp)
  | pix p =>
    unfold exec execPix at h
    refine took_of_whenOpened h (by simp [possibleFaults]) fun ho h => ?_
    split at h
    · cases h; exact .faulted _ _ (by simp [ho]) (by simp [possibleFaults]) (by simp)
    · rename_i hroom
      split at h
      · cases h
      · cases h; exact .pix p ho hroom (by omega)
  | frame =>
    unfold exec execFrame at h
    refine took_of_whenOpened h (by simp [possibleFaults]) fun ho h => ?_
    split at h
    · cases h; exact .faulted _ _ (by simp [ho]) (by simp [possibleFaults]) (by simp)
    · rename_i hfull
      split at h
      · cases h
      · rename_i hcap
        rcases emit_next h with ⟨hlt, rfl⟩ | ⟨heq, ht⟩
        · exact .frameShort ho (by omega) (by omega) hlt
        · cases ht; exact .frame ho (by omega) (by omega) heq
  | close =>
    unfold exec execClose at h
    refine took_of_whenOpened h (by simp [possibleFaults]) fun ho h => ?_
    split at h
    · cases h; exact .faulted _ _ (by simp [ho]) (by simp [possibleFaults]) (by simp)
    · rename_i hwp; cases h; exact .close ho (by simpa using hwp)
  | abort c =>
    unfold exec execAbort at h
    rcases whenNotFailed_next h with ⟨hl, h⟩ | ⟨hf, rfl⟩
    · split at h
      · rename_i e he
        cases h
        unfold upstreamError at he
        split at he <;> cases he <;> exact .faulted _ _ hl (by simp [possibleFaults]) (by simp)
      · cases h; exact .faulted _ _ hl (by simp [possibleFaults]) (by simp)
    · exact .refused _ hf
  | rd k =>
    simp only [exec, execRd] at h
    split at h
    · rename_i r hr; cases h; exact .rd k r hr
    · cases h
      by_cases hf : s.session = .failed
      · rw [rejectMalformed_failed hf]; exact .badIndex k hf
      · rw [rejectMalformed_live hf]; exact .faulted _ _ hf (by simp [possibleFaults]) (by simp)
  | conv p =>
    unfold exec execConv at h
    rcases whenNotFailed_next h with ⟨hl, h⟩ | ⟨hf, rfl⟩
    · cases h; exact .conv p hl
    · exact .refused _ hf
  | reset => cases h; exact .reset

/-- Everything a step can do. -/
theorem step_cases {s t : State} (h : step s = .next t) :
    (s.port = [] ∧ t = s)
      ∨ (∃ rest, s.port = .hardwareReset :: rest ∧ t = State.toReset { s with port := rest })
      ∨ (∃ w rest i, s.port = .command w :: rest ∧ decode w = .ok i ∧ Took { s with port := rest } i t)
      ∨ (∃ w rest e, s.port = .command w :: rest ∧ decode w = .error e
          ∧ t = State.rejectIllegal (opOf w) { s with port := rest }) := by
  rcases hp : s.port with _ | ⟨_ | _, rest⟩
  · simp only [step, State.takeInput, hp] at h; cases h; exact .inl ⟨rfl, rfl⟩
  · rename_i w
    cases hd : decode w with
    | ok i =>
      simp only [step, State.takeInput, hp, hd] at h
      exact .inr (.inr (.inl ⟨w, rest, i, rfl, hd, exec_took h⟩))
    | error e =>
      simp only [step, State.takeInput, hp, hd] at h
      cases h; exact .inr (.inr (.inr ⟨w, rest, e, rfl, hd, rfl⟩))
  · simp only [step, State.takeInput, hp, State.hardwareReset] at h
    cases h; exact .inr (.inl ⟨rest, rfl, rfl⟩)

theorem step_waiting {s : State} (h : s.port = []) : step s = .next s := by simp [step, State.takeInput, h]

theorem step_hardwareReset {s : State} {rest : List PortEvent} (h : s.port = .hardwareReset :: rest) :
    step s = .next (State.toReset { s with port := rest }) := by simp [step, State.takeInput, h, State.hardwareReset]

theorem step_command {s : State} {w : PortWord} {rest : List PortEvent} {i : Instr} (h : s.port = .command w :: rest)
    (hd : decode w = .ok i) : step s = exec i { s with port := rest } := by simp [step, State.takeInput, h, hd]

theorem step_illegal {s : State} {w : PortWord} {rest : List PortEvent} {e : DecodeError} (h : s.port = .command w :: rest)
    (hd : decode w = .error e) : step s = .next (State.rejectIllegal (opOf w) { s with port := rest }) := by
  simp [step, State.takeInput, h, hd]

end Sys2Proof.Machine
end

