-- ==== Sys2Proof/Tests/Slice0.lean ====
section
/-! SUPPORT. Small tests of the model, by evaluation. Expected values come from spec/: the tables of 95_test_vectors and the examples of
the rules named beside them. After the tests, one witness for each statement that has hypotheses: a state and operands that meet
them. The states here fix PB_CAPACITY to 8 and the sink's answers, because at reset both are free (logs 2 and 5). -/

namespace Sys2Proof.Tests

open Sys2Proof Sys2Proof.Machine

/-! ### Small states -/

/-- IDLE, configured for a picture of 2 by 1 at 25:1 (95_test_vectors section 2.7, `base`, before its OPEN). -/
def idleState : State :=
  { State.reset with
    pbCapacity := 8, nw := 2#32, nh := 1#32, frn := 25#32, frd := 1#32, sinkScript := [.takesAll, .takesAll] }

/-- OPEN in C444 at 2 by 1 with no pixel loaded, after a header of 35 bytes (section 2.7, `base`). -/
def openState : State :=
  { idleState with session := .opened, ew := 2#32, eh := 1#32, bytes := 35#64 }

/-- The same with both pixels loaded: 255,0,0 and 0,0,255. -/
def loadedState : State :=
  { openState with wp := 2#32, pb := [(0, ⟨255#8, 0#8, 0#8⟩), (1, ⟨0#8, 0#8, 255#8⟩)] }

/-- FAILED after FormatError. -/
def failedState : State := { idleState with session := .failed, err := some .formatError }

/-- A state whose next event is this word. -/
def offered (s : State) (w : PortWord) : State := s.withPort [.command w]

/-- The next state, where there is one. -/
def nextOf (r : Result) : Option State :=
  match r with
  | .next t => some t
  | .fault _ => none
  | .refused _ => none

/-- The last response, the session state and ERR after a command. -/
def answer (r : Result) : Option (Option PortWord × Session × Option ErrorCode) :=
  (nextOf r).map fun t => (t.responses.getLast?, t.session, t.err)

/-! ### Well-formedness: the one check, refused and passed at its boundary (30_encoding R77) -/

theorem test_wellFormed_refuses_badmode : (Instr.openBadmode 4#8).wellFormed = false ∧ (Instr.openBadmode 0#8).wellFormed = false := by decide

theorem test_wellFormed_accepts_badmode : (Instr.openBadmode 5#8).wellFormed = true ∧ (Instr.openBadmode 255#8).wellFormed = true := by decide

/-! ### Decoding: words of section 2.1 (and of the rules' own encodings) for every constructor -/

theorem test_decode_setnw : decode 0x1000000780#40 = .ok (.setnw 1920#32) := by decide
theorem test_decode_setnh : decode 0x1100000438#40 = .ok (.setnh 1080#32) := by decide
theorem test_decode_setfrn : decode 0x1200007530#40 = .ok (.setfrn 30000#32) := by decide
theorem test_decode_setfrd : decode 0x13000003E9#40 = .ok (.setfrd 1001#32) := by decide
theorem test_decode_setparn : decode 0x140000000A#40 = .ok (.setparn 10#32) := by decide
theorem test_decode_setpard : decode 0x150000000B#40 = .ok (.setpard 11#32) := by decide
theorem test_decode_setil : decode 0x1600000074#40 = .ok (.setil 0x74#8) := by decide
theorem test_decode_extclr : decode 0x1700000000#40 = .ok .extclr := by decide
theorem test_decode_extb : decode 0x1800000061#40 = .ok (.extb 0x61#8) := by decide
theorem test_decode_open : [0x2000000000#40, 0x2000000001#40, 0x2000000002#40, 0x2000000003#40, 0x2000000004#40].map decode
    = [.ok .openC444, .ok .openC422, .ok .openC420, .ok .openC411, .ok .openC410] := by decide
theorem test_decode_openBadmode : decode 0x2000000009#40 = .ok (.openBadmode 9#8) := by decide
theorem test_decode_pix : decode 0x2100FF8040#40 = .ok (.pix ⟨255#8, 128#8, 64#8⟩) := by decide
theorem test_decode_frame : decode 0x2200000000#40 = .ok .frame := by decide
theorem test_decode_close : decode 0x2300000000#40 = .ok .close := by decide
theorem test_decode_abort : decode 0x2400000003#40 = .ok (.abort 3#8) := by decide
theorem test_decode_rd : decode 0x300000000A#40 = .ok (.rd 0x0A#8) := by decide
theorem test_decode_conv : decode 0x3100FF8040#40 = .ok (.conv ⟨255#8, 128#8, 64#8⟩) := by decide
theorem test_decode_reset : decode 0x3F00000000#40 = .ok .reset := by decide

/-- The illegal words of section 2.1 that no operand rule saves: reserved opcodes and reserved operand bits. -/
theorem test_decode_illegal :
    [0x0000000000#40, 0x0F00000000#40, 0x1900000000#40, 0x1F00000000#40, 0x2500000000#40, 0x3200000000#40, 0x3E00000000#40,
      0x4000000000#40, 0xFF00000000#40, 0x1700000001#40, 0x2200000001#40, 0x2300000001#40, 0x3F00000001#40, 0x1600000100#40,
      0x1800000100#40, 0x2000000100#40, 0x2101000000#40, 0x3101000000#40, 0x3000000100#40, 0x2400000100#40].all
        (fun w => match decode w with | .ok _ => false | .error _ => true) = true := by decide

theorem test_encode : encode (.setfrd 1001#32) = 0x13000003E9#40 ∧ encode (.conv ⟨255#8, 128#8, 64#8⟩) = 0x3100FF8040#40
    ∧ encode (.openBadmode 9#8) = 0x2000000009#40 ∧ encode .openC411 = 0x2000000003#40 := by decide

/-- The opcode table's numbering, and a word too long for the port. -/
theorem test_decodeTableWord : decodeTableWord 40 0x2100FF8040 = some (.pix ⟨255#8, 128#8, 64#8⟩)
    ∧ decodeTableWord 40 0x1900000000 = none ∧ decodeTableWord 48 0x2200000000 = none := by decide

/-- A word placed for the next step runs as the first one after reset: SETNW 1920. -/
theorem test_withFetchWord : (nextOf (step (State.reset.withFetchWord 40 0x1000000780))).map (fun t => (t.nw, t.responses))
    = some (1920#32, [0x0000000000#40]) := by decide

/-! ### Colour converter (sections 2.2 and 2.3) -/

theorem test_samples_red : (luma ⟨255#8, 0#8, 0#8⟩, chromaBlue ⟨255#8, 0#8, 0#8⟩, chromaRed ⟨255#8, 0#8, 0#8⟩) = (76#8, 85#8, 255#8) := by decide
theorem test_samples_yellow : (luma ⟨255#8, 255#8, 0#8⟩, chromaBlue ⟨255#8, 255#8, 0#8⟩, chromaRed ⟨255#8, 255#8, 0#8⟩) = (226#8, 1#8, 149#8) := by decide
theorem test_average_two : chromaBlueAvg [⟨0#8, 0#8, 0#8⟩, ⟨0#8, 2#8, 3#8⟩] = 128#8 ∧ chromaRedAvg [⟨0#8, 0#8, 0#8⟩, ⟨0#8, 2#8, 3#8⟩] = 127#8 := by decide

/-- The eight pixels A B G W K p q s of section 2.5, row by row, as a picture of this width. -/
def eightPixels (w : Nat) : Nat → Nat → Pixel :=
  pictureOf w ([⟨255#8, 0#8, 0#8⟩, ⟨0#8, 0#8, 255#8⟩, ⟨0#8, 255#8, 0#8⟩, ⟨255#8, 255#8, 255#8⟩]
    ++ [⟨0#8, 0#8, 0#8⟩, ⟨10#8, 20#8, 30#8⟩, ⟨200#8, 100#8, 50#8⟩, ⟨1#8, 2#8, 3#8⟩])

theorem test_planes_c422 : planes .c422 2 2 (eightPixels 2) = [0x4C#8, 0x1D#8, 0x96#8, 0xFF#8, 0xAA#8, 0x56#8, 0xB5#8, 0x4B#8] := by decide
theorem test_chroma_c420 : cbPlane .c420 4 2 (eightPixels 4) = [0x97#8, 0x61#8] ∧ crPlane .c420 4 2 (eightPixels 4) = [0x99#8, 0x73#8] := by decide
theorem test_chroma_c411 : cbPlane .c411 4 2 (eightPixels 4) = [0x80#8, 0x77#8] ∧ crPlane .c411 4 2 (eightPixels 4) = [0x80#8, 0x8C#8] := by decide
theorem test_chroma_c410 : cbPlane .c410 4 2 (eightPixels 4) = [0x7C#8] ∧ crPlane .c410 4 2 (eightPixels 4) = [0x86#8] := by decide

/-- Section 2.4, row 1923x1081: the crop of each mode. -/
theorem test_crop : [Mode.c444, .c422, .c420, .c411, .c410].map (fun m => (cropWidth m 1923#32, cropHeight m 1081#32))
    = [(1923, 1081), (1922, 1081), (1922, 1080), (1920, 1081), (1920, 1080)] := by decide

theorem test_dec : dec 0 = [0x30#8] ∧ dec 1001 = [0x31#8, 0x30#8, 0x30#8, 0x31#8] ∧ (dec 2147483647).length = 10 := by decide

/-! ### One step of each command -/

theorem test_setnw : (nextOf (exec (.setnw 1920#32) idleState)).map (fun t => (t.nw, t.nh)) = some (1920#32, 1#32) := by decide
/-- Section 2.7: configuration in OPEN; NW stays 2. -/
theorem test_setnw_open : answer (exec (.setnw 4#32) openState) = some (some 0x0900000000#40, .failed, some .sequence)
    ∧ (nextOf (exec (.setnw 4#32) openState)).map (fun t => t.nw) = some 2#32 := by decide
theorem test_setnh : (nextOf (exec (.setnh 1080#32) idleState)).map (fun t => (t.nw, t.nh)) = some (2#32, 1080#32) := by decide
theorem test_setfrn : (nextOf (exec (.setfrn 30000#32) idleState)).map (fun t => (t.frn, t.frd)) = some (30000#32, 1#32) := by decide
theorem test_setfrd : (nextOf (exec (.setfrd 1001#32) idleState)).map (fun t => (t.frn, t.frd)) = some (25#32, 1001#32) := by decide
theorem test_setparn : (nextOf (exec (.setparn 10#32) idleState)).map (fun t => (t.parn, t.pard)) = some (10#32, 1#32) := by decide
theorem test_setpard : (nextOf (exec (.setpard 11#32) idleState)).map (fun t => (t.parn, t.pard)) = some (1#32, 11#32) := by decide
theorem test_setil : (nextOf (exec (.setil 0x74#8) idleState)).map (fun t => t.il) = some 0x74#8 := by decide
theorem test_extclr : (nextOf (exec .extclr { idleState with extlen := 201#32 })).map (fun t => t.extlen) = some 0#32 := by decide
theorem test_extb : (nextOf (exec (.extb 0x63#8) { idleState with extlen := 1#32, ext := [(0, 0x61#8)] })).map (fun t => (t.extlen, t.ext))
    = some (2#32, [(0, 0x61#8), (1, 0x63#8)]) := by decide
/-- The 201st byte is dropped (section 2.6, 201 times `EXTB 'x'`). -/
theorem test_extb_full : (nextOf (exec (.extb 0x78#8) { idleState with extlen := 200#32 })).map (fun t => (t.extlen, t.ext))
    = some (201#32, []) := by decide

/-- Section 2.6: `YUV4MPEG2 W2 H2 F25:1 Ip A1:1 C444 Xabc\n` has 40 bytes. -/
theorem test_openC444 : (nextOf (exec .openC444
      { idleState with nh := 2#32, extlen := 3#32, ext := [(0, 0x61#8), (1, 0x62#8), (2, 0x63#8)] })).map
        (fun t => (t.out, t.bytes))
    = some ([0x59#8, 0x55#8, 0x56#8, 0x34#8, 0x4D#8, 0x50#8, 0x45#8, 0x47#8, 0x32#8, 0x20#8, 0x57#8, 0x32#8, 0x20#8, 0x48#8, 0x32#8,
        0x20#8, 0x46#8, 0x32#8, 0x35#8, 0x3A#8, 0x31#8, 0x20#8, 0x49#8, 0x70#8, 0x20#8, 0x41#8, 0x31#8, 0x3A#8, 0x31#8, 0x20#8]
        ++ [0x43#8, 0x34#8, 0x34#8, 0x34#8, 0x20#8, 0x58#8, 0x61#8, 0x62#8, 0x63#8, 0x0A#8], 40#64) := by decide
/-- Section 2.6, last rows: 3 by 3 in C444 is 9 pixels, more than PB_CAPACITY 8; the crop of C420 makes it 4. -/
theorem test_openC444_capacity : answer (exec .openC444 { idleState with nw := 3#32, nh := 3#32 })
    = some (some 0x0500000000#40, .failed, some .allocation) := by decide
theorem test_openC420 : (nextOf (exec .openC420 { idleState with nw := 3#32, nh := 3#32 })).map (fun t => (t.session, t.ew, t.eh))
    = some (.opened, 2#32, 2#32) := by decide
/-- Section 2.6: width 1 crops to 0. -/
theorem test_openC422_zero : answer (exec .openC422 { idleState with nw := 1#32 }) = some (some 0x0400000000#40, .failed, some .zeroSizeOutput) := by decide
theorem test_openC411_zero : answer (exec .openC411 { idleState with nw := 3#32, nh := 3#32 })
    = some (some 0x0400000000#40, .failed, some .zeroSizeOutput) := by decide
/-- Section 2.9, second table, n = 10: ten bytes of the header, BYTES 10, STATUS 0x6, MODE 4, EW 4, EH 2. -/
theorem test_openC410_short : (nextOf (exec .openC410 { idleState with nw := 4#32, nh := 2#32, sinkScript := [.takes 10] })).map
    (fun t => (t.responses, t.bytes, t.readReg .status, t.readReg .mode, t.ew, t.eh))
    = some ([0x0600000000#40], 10#64, 6#32, 4#32, 4#32, 2#32) := by decide
/-- Section 2.9, n = 35: the advisory is in the response and in STATUS. -/
theorem test_openC410_warns : (nextOf (exec .openC410 { idleState with nw := 4#32, nh := 2#32 })).map
    (fun t => (t.responses, t.bytes, t.readReg .status)) = some ([0x0000000001#40], 35#64, 5#32) := by decide
/-- Section 2.6: `OPEN 255` straight after reset, found before the zero size. -/
theorem test_openBadmode : answer (exec (.openBadmode 255#8) State.reset) = some (some 0x0700000000#40, .failed, some .containerHeader) := by decide

theorem test_pix : (nextOf (exec (.pix ⟨255#8, 0#8, 0#8⟩) openState)).map (fun t => (t.wp, t.pb)) = some (1#32, [(0, ⟨255#8, 0#8, 0#8⟩)]) := by decide
/-- Section 2.7: the third pixel of a two-pixel frame; WP stays 2. -/
theorem test_pix_overrun : answer (exec (.pix ⟨0#8, 0#8, 0#8⟩) loadedState) = some (some 0x0A00000000#40, .failed, some .bufferOverrun)
    ∧ (nextOf (exec (.pix ⟨0#8, 0#8, 0#8⟩) loadedState)).map (fun t => t.wp) = some 2#32 := by decide
/-- Section 2.9, n = 12 (and program P1): the marker, then 4C 1D 55 FF FF 6B. -/
theorem test_frame : (nextOf (exec .frame loadedState)).map (fun t => (t.out, t.bytes, t.wp, t.frames)) =
    some ([0x46#8, 0x52#8, 0x41#8, 0x4D#8, 0x45#8, 0x0A#8, 0x4C#8, 0x1D#8, 0x55#8, 0xFF#8, 0xFF#8, 0x6B#8], 47#64, 0#32, 1#32) := by decide
/-- Section 2.9, n = 8. -/
theorem test_frame_short : (nextOf (exec .frame { loadedState with sinkScript := [.takes 8] })).map
    (fun t => (t.out, t.bytes, t.wp, t.frames, t.err)) =
    some ([0x46#8, 0x52#8, 0x41#8, 0x4D#8, 0x45#8, 0x0A#8, 0x4C#8, 0x1D#8], 43#64, 2#32, 0#32, some .io) := by decide
theorem test_close : answer (exec .close openState) = some (some 0x0000000000#40, .idle, none) := by decide
theorem test_close_incomplete : answer (exec .close loadedState) = some (some 0x0B00000000#40, .failed, some .frameIncomplete) := by decide
theorem test_abort : answer (exec (.abort 2#8) idleState) = some (some 0x0200000000#40, .failed, some .formatError) := by decide
theorem test_abort_code : answer (exec (.abort 4#8) openState) = some (some 0x0800000000#40, .failed, some .illegalCommand) := by decide
/-- Section 2.8, rows 9 and 12. -/
theorem test_rd_failed : answer (exec (.rd 1#8) failedState) = some (some 0x0000000002#40, .failed, some .formatError)
    ∧ answer (exec (.rd 0x11#8) failedState) = some (some 0x0800000000#40, .failed, some .formatError) := by decide
theorem test_rd_reset : [0x00#8, 0x06#8, 0x07#8, 0x08#8, 0x10#8].map (fun k => (nextOf (exec (.rd k) State.reset)).map fun t => t.responses)
    = [some [0x0000000000#40], some [0x0000000001#40], some [0x0000000001#40], some [0x0000000070#40], some [0x0000000000#40]] := by decide
theorem test_conv : answer (exec (.conv ⟨10#8, 20#8, 30#8⟩) idleState) = some (some 0x000012877A#40, .idle, none) := by decide
theorem test_conv_failed : answer (exec (.conv ⟨0#8, 0#8, 0#8⟩) failedState) = some (some 0x0C00000000#40, .failed, some .formatError) := by decide
/-- Section 2.7: RESET in OPEN abandons the session; what the sink has stays. -/
theorem test_reset : (nextOf (exec .reset { loadedState with out := [0x59#8] })).map (fun t => (t.session, t.nw, t.wp, t.out, t.responses))
    = some (.idle, 0#32, 0#32, [0x59#8], [0x0000000000#40]) := by decide

/-- Section 2.8, rows 13 and 14: a reserved opcode and a malformed RESET in FAILED. -/
theorem test_illegal_failed : answer (step (offered failedState 0x9900000000#40)) = some (some 0x0C00000000#40, .failed, some .formatError)
    ∧ answer (step (offered failedState 0x3F00000001#40)) = some (some 0x0800000000#40, .failed, some .formatError) := by decide
/-- Section 2.1: FRAME with arg not 0 in IDLE is IllegalCommand, not SequenceError. -/
theorem test_illegal_idle : answer (step (offered idleState 0x2200000001#40)) = some (some 0x0800000000#40, .failed, some .illegalCommand) := by decide

/-- 30_encoding R79's forms, with comment and blanks. -/
theorem test_assemble : assemble ["SETFRN -1   # the same word as 4294967295", "RD 0x0A", "SETPAR 10, 11", "EXT \"Y#\"", "PIXELS (255,0,0) (0,0,255)"]
    = some [0x12FFFFFFFF#40, 0x300000000A#40, 0x140000000A#40, 0x150000000B#40, 0x1700000000#40, 0x1800000059#40, 0x1800000023#40,
        0x2100FF0000#40, 0x21000000FF#40] := by decide

/-! ### Witnesses: for each statement with hypotheses, states and operands that meet them, at the boundaries of its clauses -/

theorem witness_inv_idle : Inv idleState := by constructor <;> decide
theorem witness_inv_open : Inv openState := by constructor <;> decide
theorem witness_inv_loaded : Inv loadedState := by constructor <;> decide
theorem witness_inv_failed : Inv failedState := by constructor <;> decide

/-- What the host is about to give is no part of the invariant. -/
theorem witness_inv_withPort {s : State} (h : Inv s) (events : List PortEvent) : Inv (s.withPort events) := { h with }

theorem witness_EncodeThenDecode : (Instr.openBadmode 5#8).wellFormed = true := by decide
theorem witness_DecodeThenEncode : decode 0x20000000FF#40 = .ok (.openBadmode 255#8) := by decide

/-- Each range of reserved opcodes at its ends. -/
theorem witness_ReservedOpcodesAreIllegal :
    (∀ op ∈ [0x00#8, 0x0F#8, 0x19#8, 0x1F#8, 0x25#8, 0x2F#8, 0x32#8, 0x3E#8, 0x40#8, 0xFF#8],
      op.toNat ≤ 0x0F ∨ (0x19 ≤ op.toNat ∧ op.toNat ≤ 0x1F) ∨ (0x25 ≤ op.toNat ∧ op.toNat ≤ 0x2F)
        ∨ (0x32 ≤ op.toNat ∧ op.toNat ≤ 0x3E) ∨ 0x40 ≤ op.toNat)
    ∧ (offered failedState (0x19#8 ++ 0#32)).port = [.command (0x19#8 ++ 0#32)]
    ∧ (offered failedState (0x19#8 ++ 0#32)).session = .failed := by decide

/-- Each group of forms at its first reserved value, and the two responses of FAILED. -/
theorem witness_ReservedOperandBitsAreIllegal :
    (∀ op ∈ [0x16#8, 0x18#8, 0x20#8, 0x24#8, 0x30#8], op.toNat ∈ [0x16, 0x18, 0x20, 0x24, 0x30]) ∧ 0x100 ≤ (0x100#32).toNat
    ∧ (∀ op ∈ [0x17#8, 0x22#8, 0x23#8, 0x3F#8], op.toNat ∈ [0x17, 0x22, 0x23, 0x3F]) ∧ 1#32 ≠ 0#32
    ∧ (∀ op ∈ [0x21#8, 0x31#8], op.toNat ∈ [0x21, 0x31]) ∧ 0x1000000 ≤ (0x1000000#32).toNat
    ∧ answer (step (offered failedState (0x30#8 ++ 0x100#32))) = some (some 0x0800000000#40, .failed, some .formatError)
    ∧ answer (step (offered failedState (0x16#8 ++ 0x100#32))) = some (some 0x0C00000000#40, .failed, some .formatError) := by decide

/-- A word that is illegal outside FAILED, in both session states. -/
theorem witness_IllegalOutsideFailed :
    (offered idleState 0x1900000000#40).port = [.command 0x1900000000#40] ∧ (offered idleState 0x1900000000#40).session ≠ .failed
    ∧ (offered openState 0x1900000000#40).session ≠ .failed := by decide

theorem witness_StepRunsDecodedCommand :
    (offered idleState 0x1000000780#40).port = [.command 0x1000000780#40] ∧ decode 0x1000000780#40 = .ok (.setnw 1920#32) := by decide

theorem witness_StepWaitsForTheHost : idleState.port = [] := by decide

theorem witness_BothResetsGiveTheResetState : (loadedState.withPort [.hardwareReset]).port = [.hardwareReset] := by decide

theorem witness_ResetKeepsTheBuffers :
    (∃ t, (loadedState.withPort [.hardwareReset]).nextIsReset ∧ step (loadedState.withPort [.hardwareReset]) = .next t)
    ∧ ∃ t, (offered loadedState 0x3F00000000#40).nextIsReset ∧ step (offered loadedState 0x3F00000000#40) = .next t :=
  ⟨⟨_, .inl rfl, rfl⟩, ⟨_, .inr rfl, rfl⟩⟩

/-- ResetCommand: a malformed RESET; RESET itself leaves FAILED and clears ERR. -/
theorem witness_ResetCommand : 1#32 ≠ 0#32 ∧ (offered failedState (0x3F#8 ++ 1#32)).session = .failed
    ∧ (offered failedState (0x3F#8 ++ 1#32)).port = [.command (0x3F#8 ++ 1#32)]
    ∧ answer (exec .reset failedState) = some (some 0x0000000000#40, .idle, none) := by decide

/-- The three clauses: a legal word that is neither RD nor RESET, RD of index 0x11, RESET with an operand. -/
theorem witness_FailedRefusesAllButRdAndReset :
    failedState.session = .failed
    ∧ (0x1000000004#40).extractLsb' 32 8 ≠ 0x30#8 ∧ (0x1000000004#40).extractLsb' 32 8 ≠ 0x3F#8
    ∧ (0x3000000011#40).extractLsb' 32 8 = 0x30#8 ∧ 0x10 < ((0x3000000011#40).extractLsb' 0 32).toNat
    ∧ (0x3F00000001#40).extractLsb' 32 8 = 0x3F#8 ∧ (0x3F00000001#40).extractLsb' 0 32 ≠ 0#32 := by decide

/-- Both outcomes: a refused command and the RESET command. -/
theorem witness_OnlyResetLeavesFailed :
    (∃ t, (offered failedState 0x1000000004#40).session = .failed ∧ step (offered failedState 0x1000000004#40) = .next t)
    ∧ ∃ t, (offered failedState 0x3F00000000#40).session = .failed ∧ step (offered failedState 0x3F00000000#40) = .next t :=
  ⟨⟨_, rfl, rfl⟩, ⟨_, rfl, rfl⟩⟩

/-- OPEN, CLOSE and a fault: one step of each kind of transition. -/
theorem witness_SessionTransitions :
    (nextOf (step (offered idleState 0x2000000000#40))).map (fun t => t.session) = some .opened
    ∧ (nextOf (step (offered openState 0x2300000000#40))).map (fun t => t.session) = some .idle
    ∧ (nextOf (step (offered idleState 0x2300000000#40))).map (fun t => t.session) = some .failed
    ∧ (nextOf (step (failedState.withPort [.hardwareReset]))).map (fun t => t.session) = some .idle := by decide

/-- A fault, and a command without fault. -/
theorem witness_OneResponsePerCommand :
    answer (step (offered openState 0x2200000000#40)) = some (some 0x0B00000000#40, .failed, some .frameIncomplete)
    ∧ answer (step (offered openState 0x300000000A#40)) = some (some 0x0000000002#40, .opened, none) := by decide

theorem witness_FaultsArePrecise : (offered openState 0x2200000000#40).session ≠ .failed
    ∧ ∃ t, step (offered openState 0x2200000000#40) = .next t ∧ t.session = .failed ∧ t.err ≠ some .io :=
  ⟨by decide, ⟨_, rfl, rfl, by decide⟩⟩

/-- FaultsArePrecise' clause on IoError: OPEN and FRAME whose bytes the sink takes in part. -/
theorem witness_IoError :
    answer (step (offered { idleState with sinkScript := [.takes 10] } 0x2000000000#40)) = some (some 0x0600000000#40, .failed, some .io)
    ∧ answer (step (offered { loadedState with sinkScript := [.takes 0] } 0x2200000000#40)) = some (some 0x0600000000#40, .failed, some .io) := by decide

/-- FaultsPerCommand: a command's own fault, and a word that is no command. -/
theorem witness_FaultsPerCommand :
    (∃ t, (offered openState 0x2200000000#40).session ≠ .failed ∧ step (offered openState 0x2200000000#40) = .next t ∧ t.session = .failed)
    ∧ ∃ t, (offered openState 0x2200000001#40).session ≠ .failed ∧ step (offered openState 0x2200000001#40) = .next t ∧ t.session = .failed :=
  ⟨⟨_, by decide, rfl, rfl⟩, ⟨_, by decide, rfl, rfl⟩⟩

/-- The session states that the clauses of every command suppose. -/
theorem witness_sessions : idleState.session = .idle ∧ openState.session = .opened ∧ failedState.session = .failed := by decide

/-- WordConfigurationCommands, InterlaceFlagCommand, ExtensionClear: an idle state and operands at the first illegal value. -/
theorem witness_Configuration : idleState.session = .idle ∧ 0x100 ≤ (0x100#32).toNat ∧ 1#32 ≠ 0#32 := by decide

/-- WordConfigurationCommands and InterlaceFlagCommand: values that OPEN finds, at the edge of what it takes (0x7FFFFFFF is positive). -/
theorem witness_ConfigurationFoundByOpen :
    cropWidth .c444 idleState.nw ≠ 0 ∧ cropHeight .c444 idleState.nh ≠ 0
    ∧ (0x80000000#32).toInt ≤ 0 ∧ (0#32).toInt ≤ 0 ∧ 0 < (0x7FFFFFFF#32).toInt
    ∧ 0x50#8 ≠ 0x70#8 ∧ 0x50#8 ≠ 0x74#8 ∧ 0x50#8 ≠ 0x62#8 ∧ 0x50#8 ≠ 0x6D#8
    ∧ ({ idleState with nw := 0#32 } : State).nw = 0#32 := by decide

/-- The invariant bounds EXTLEN alone in an idle state: any length up to 201 keeps it (10_state R36). -/
theorem witness_inv_extensionPush (n : Word) (h : n.toNat ≤ 201) : Inv { idleState with extlen := n } :=
  { witness_inv_idle with
    extLength := h, headerGood := fun ho => by simp [idleState, State.reset] at ho }

/-- ExtensionPush: the last stored byte, the first dropped one, and after it. -/
theorem witness_ExtensionPush :
    Inv { idleState with extlen := 199#32 } ∧ Inv { idleState with extlen := 200#32 } ∧ Inv { idleState with extlen := 201#32 }
    ∧ (199#32).toNat < 200 ∧ 200 ≤ (200#32).toNat :=
  ⟨witness_inv_extensionPush 199#32 (by decide), witness_inv_extensionPush 200#32 (by decide),
    witness_inv_extensionPush 201#32 (by decide), by decide⟩

/-- The values of `idleState` are valid for a header. -/
theorem witness_headerValuesValid : idleState.headerValuesValid :=
  by simp [State.headerValuesValid, idleState, State.reset]

/-- OpenCommand's four outcomes: width cropped to 0, an invalid rate, one pixel too many, and exactly PB_CAPACITY pixels taken whole or
in part. -/
theorem witness_OpenCommand :
    (0 = 1 - 1 % Mode.c422.hx)
    ∧ ¬ ({ idleState with frn := 0x80000000#32 } : State).headerValuesValid
    ∧ idleState.pbCapacity < 3 * 3 ∧ 4 * 2 ≤ idleState.pbCapacity
    ∧ idleState.sinkAnswer.accepted (header (idleState.committed .c444 2 1)).length = (header (idleState.committed .c444 2 1)).length
    ∧ ({ idleState with sinkScript := [.takes 34] } : State).sinkAnswer.accepted (header (idleState.committed .c444 2 1)).length
        < (header (idleState.committed .c444 2 1)).length :=
  ⟨by decide, fun h => absurd h.1 (by decide), by decide, by decide, by decide, by decide⟩

/-- OpenRowsPerMode: for each row a width just below the factor, and a state that opens. -/
theorem witness_OpenRowsPerMode : (∀ m ∈ [Mode.c444, .c422, .c420, .c411, .c410],
      m.hx - 1 < m.hx ∧ m.hx ≤ (4#32).toNat ∧ m.vy ≤ (2#32).toNat
        ∧ ((4#32).toNat - (4#32).toNat % m.hx) * ((2#32).toNat - (2#32).toNat % m.vy) ≤ idleState.pbCapacity)
    ∧ idleState.session = .idle ∧ idleState.sinkAnswer = .takesAll := by decide

theorem witness_OpenBadModeCode : 5 ≤ (5#8).toNat ∧ 5 ≤ (255#8).toNat ∧ idleState.session = .idle := by decide

/-- PixelLoad: room for a pixel, the last pixel, and a complete picture. -/
theorem witness_PixelLoad : openState.session = .opened ∧ openState.wp.toNat ≠ openState.ew.toNat * openState.eh.toNat
    ∧ ({ openState with wp := 1#32 } : State).wp.toNat ≠ openState.ew.toNat * openState.eh.toNat
    ∧ loadedState.wp.toNat = loadedState.ew.toNat * loadedState.eh.toNat ∧ 0x1000000 ≤ (0x1000000#32).toNat := by decide

/-- FrameCommand: an incomplete picture, and a complete one taken whole or in part (a frame has 12 bytes). -/
theorem witness_FrameCommand : openState.wp.toNat ≠ openState.ew.toNat * openState.eh.toNat
    ∧ loadedState.wp.toNat = loadedState.ew.toNat * loadedState.eh.toNat
    ∧ loadedState.sinkAnswer.accepted loadedState.frameBytes.length = loadedState.frameBytes.length
    ∧ ({ loadedState with sinkScript := [.takes 11] } : State).sinkAnswer.accepted loadedState.frameBytes.length
        < loadedState.frameBytes.length := by decide

/-- MissingPixelStops: an incomplete and a complete picture in states that meet the invariant, then the two cases that it excludes. -/
theorem witness_MissingPixelStops_inv : Inv openState ∧ openState.wp.toNat ≠ openState.ew.toNat * openState.eh.toNat ∧ Inv loadedState :=
  ⟨witness_inv_open, by decide, witness_inv_loaded⟩

theorem witness_MissingPixelStops :
    (({ openState with pbCapacity := 1, wp := 1#32 } : State).wp.toNat ≠ openState.ew.toNat * openState.eh.toNat)
    ∧ ({ openState with pbCapacity := 1, wp := 1#32 } : State).pbCapacity ≤ (1#32).toNat
    ∧ ({ loadedState with pbCapacity := 1 } : State).pbCapacity < loadedState.ew.toNat * loadedState.eh.toNat := by decide

theorem witness_CloseCommand : openState.wp = 0#32 ∧ loadedState.wp ≠ 0#32 ∧ loadedState.session = .opened := by decide
theorem witness_AbortCommand : openState.session ≠ .failed ∧ ∀ c ∈ [0#8, 4#8, 255#8], c.toNat ≠ 1 ∧ c.toNat ≠ 2 ∧ c.toNat ≠ 3 := by decide
theorem witness_RegisterRead : (0x10#8).toNat ≤ 0x10 ∧ 0x10 < (0x11#8).toNat ∧ openState.session ≠ .failed ∧ failedState.session = .failed := by decide
theorem witness_ConvertPixel : openState.session ≠ .failed ∧ failedState.session = .failed := by decide

/-- RoundHalfUpWithCap at a tie, just below it, and at the cap. -/
theorem witness_RoundHalfUpWithCap : 128500 % 1000 = 500 ∧ 128499 % 1000 < 500 ∧ (rounded 128500 1).toNat = 129 ∧ (rounded 128499 1).toNat = 128
    ∧ (rounded 255500 1).toNat = 255 := by decide

theorem witness_CapActsForOnePixelValue : ([⟨0#8, 0#8, 255#8⟩, ⟨0#8, 0#8, 255#8⟩] : List Pixel).length = 2
    ∧ 255 < (rawSum rawBlue [⟨0#8, 0#8, 255#8⟩, ⟨0#8, 0#8, 255#8⟩] + 500 * 2) / (1000 * 2)
    ∧ ¬ 255 < (rawSum rawBlue [⟨0#8, 0#8, 255#8⟩, ⟨0#8, 0#8, 254#8⟩] + 500 * 2) / (1000 * 2) := by decide

/-- Section 2.3: four and eight pixels of different values, blue and red, where rounding each first would give another sample. -/
theorem test_average_four_eight :
    chromaBlueAvg [⟨0#8, 0#8, 0#8⟩, ⟨10#8, 20#8, 30#8⟩, ⟨200#8, 100#8, 50#8⟩, ⟨1#8, 2#8, 3#8⟩] = 119#8
    ∧ chromaRedAvg [⟨0#8, 0#8, 0#8⟩, ⟨10#8, 20#8, 30#8⟩, ⟨200#8, 100#8, 50#8⟩, ⟨1#8, 2#8, 3#8⟩] = 140#8
    ∧ chromaBlueAvg (List.replicate 3 ⟨0#8, 0#8, 1#8⟩ ++ List.replicate 5 ⟨0#8, 0#8, 0#8⟩) = 128#8
    ∧ chromaBlueAvg ((List.range 8).map fun k => eightPixels 4 0 k) = 124#8
    ∧ chromaRedAvg ((List.range 8).map fun k => eightPixels 4 0 k) = 134#8 := by decide

/-- AverageThenRoundOnce: lists of each length, the capped pixels, and greys. -/
theorem witness_AverageThenRoundOnce_lengths : (∀ k ∈ [2, 4, 8], (List.replicate k (⟨9#8, 9#8, 9#8⟩ : Pixel)).length = k)
    ∧ (∀ p ∈ List.replicate 4 (⟨0#8, 0#8, 255#8⟩ : Pixel), p = ⟨0#8, 0#8, 255#8⟩)
    ∧ ∀ p ∈ List.replicate 8 (⟨9#8, 9#8, 9#8⟩ : Pixel), p.r = p.g ∧ p.g = p.b := by decide

theorem witness_AverageThenRoundOnce : ([⟨0#8, 0#8, 0#8⟩, ⟨0#8, 2#8, 3#8⟩] : List Pixel).Perm [⟨0#8, 2#8, 3#8⟩, ⟨0#8, 0#8, 0#8⟩] :=
  List.Perm.swap _ _ []

theorem witness_LumaPlaneOrder : 1 < 2 ∧ 3 < 4 := by decide
/-- ChromaLayoutsPerMode: the smallest picture of each mode has the crop that its clause supposes. -/
theorem witness_ChromaLayoutsPerMode : ∀ m ∈ [Mode.c444, .c422, .c420, .c411, .c410], m.hx % m.hx = 0 ∧ m.vy % m.vy = 0 ∧ 1 ≤ m.hx * m.vy := by decide
/-- ChromaBlocksTileThePicture: the last block and the last pixel of a picture of 8 by 2. -/
theorem witness_ChromaBlocksTileThePicture : 0 < 2 / Mode.c410.vy ∧ 1 < 8 / Mode.c410.hx ∧ 1 < Mode.c410.vy ∧ 3 < Mode.c410.hx
    ∧ 8 % Mode.c410.hx = 0 ∧ 2 % Mode.c410.vy = 0 ∧ 1 < 2 ∧ 7 < 8 := by decide
theorem witness_PlaneAndFrameSizes : 8 % Mode.c410.hx = 0 ∧ 2 % Mode.c410.vy = 0 ∧ 8 * 2 < 2 ^ 32 := by decide
theorem witness_DecimalText : 1 ≤ 10 := by decide

/-- HeaderLine: an extension of one byte at each end of the range, and one with a space. -/
theorem witness_HeaderLine : (∀ c ∈ [0x21#8, 0x7E#8], ({ idleState with extlen := 1#32, ext := [(0, c)] } : State).extOk = true)
    ∧ (∀ c ∈ [0x20#8, 0x7F#8], ({ idleState with extlen := 1#32, ext := [(0, c)] } : State).extOk = false)
    ∧ idleState.extOk = false ∧ ({ idleState with extlen := 201#32 } : State).extOk = false := by decide

theorem witness_HeaderLength : Inv openState ∧ openState.session = .opened ∧ (header openState).length = 35 :=
  ⟨witness_inv_open, by decide, by decide⟩

/-- The state of the document's header scenario. -/
def scenarioState : State := { idleState with nw := 64#32, nh := 64#32, frn := 30#32, pbCapacity := 4096 }

theorem witness_HeaderScenario : scenarioState.session = .idle ∧ scenarioState.nw = 64#32 ∧ scenarioState.nh = 64#32
    ∧ scenarioState.frn = 30#32 ∧ scenarioState.frd = 1#32 ∧ scenarioState.parn = 1#32 ∧ scenarioState.pard = 1#32
    ∧ scenarioState.il = 0x70#8 ∧ scenarioState.extlen = 0#32 ∧ 4096 ≤ scenarioState.pbCapacity
    ∧ scenarioState.sinkAnswer.accepted 37 = 37 := by decide

theorem witness_InvariantKept : ∃ t, Inv (offered loadedState 0x2200000000#40) ∧ step (offered loadedState 0x2200000000#40) = .next t :=
  ⟨_, witness_inv_withPort witness_inv_loaded _, rfl⟩

theorem witness_NoStopFromTheInvariant : Inv openState := witness_inv_open

/-- EnvironmentHistoriesGrow, OnlyOpenAndFrameEmit, BytesCountsAcceptedBytes, ConfigurationIsWrittenInIdleOnly: FRAME in a session. -/
theorem witness_FrameStep : (offered loadedState 0x2200000000#40).session = .opened ∧ (offered loadedState 0x2200000000#40).session ≠ .idle
    ∧ ¬ (offered loadedState 0x2200000000#40).nextIsReset
    ∧ (nextOf (step (offered loadedState 0x2200000000#40))).map (fun t => decide (t.out ≠ loadedState.out)) = some true :=
  ⟨by decide, by decide, by simp [State.nextIsReset, offered, State.withPort], by decide⟩

/-- BytesCountsAcceptedBytes' clause on IDLE: OPEN succeeds, and OPEN fails in the header. -/
theorem witness_OpenStep : (nextOf (step (offered idleState 0x2000000000#40))).map (fun t => (t.session, t.bytes)) = some (.opened, 35#64)
    ∧ (nextOf (step (offered { idleState with sinkScript := [.takes 10] } 0x2000000000#40))).map (fun t => (t.session, t.err, t.bytes))
      = some (.failed, some .io, 10#64) := by decide

/-- OpenRegistersWriters: a step whose word is neither OPEN nor a reset. -/
theorem witness_OpenRegistersWriters : ¬ (offered loadedState 0x2200000000#40).nextIsReset
    ∧ ∀ m : Mode, ¬ (offered loadedState 0x2200000000#40).nextIs (openInstr m) :=
  ⟨by simp [State.nextIsReset, offered, State.withPort], fun m => by cases m <;> simp [State.nextIs, offered, State.withPort, openInstr, encode, commandWord]⟩

theorem witness_SinkAcceptsAnyPrefix : 3 ≤ 10 := by decide

/-- One pixel is loaded; RD STATUS comes next. -/
def unreadLeft : State := { openState with wp := 1#32, pb := [(0, ⟨255#8, 0#8, 0#8⟩)], port := [.command 0x3000000000#40] }

/-- The same but for PB[1] and EXT[0], which are not read. -/
def unreadRight : State := { unreadLeft with pb := [(0, ⟨255#8, 0#8, 0#8⟩), (1, ⟨1#8, 2#8, 3#8⟩)], ext := [(0, 0x61#8)] }

theorem witness_UnreadContentsAreUnobservable : Inv unreadLeft ∧ Inv unreadRight ∧ SameButUnread unreadLeft unreadRight
    ∧ unreadLeft ≠ unreadRight ∧ ∃ t, step unreadLeft = .next t :=
  ⟨by constructor <;> decide, by constructor <;> decide, by constructor <;> decide, by decide, ⟨_, rfl⟩⟩

/-- The pixels of a frame of 2 by 1. -/
def onePicture : List Pixel := [⟨255#8, 0#8, 0#8⟩, ⟨0#8, 0#8, 255#8⟩]

/-- The host is about to send a session of one frame. -/
def sessionState : State := { idleState with port := commandEvents (sessionCommands .c444 [onePicture]) }

theorem witness_SessionEmitsItsStream : Inv sessionState ∧ sessionState.session = .idle ∧ sessionState.canOpen .c444
    ∧ (∀ pixels ∈ [onePicture], pixels.length = cropWidth .c444 sessionState.nw * cropHeight .c444 sessionState.nh)
    ∧ sessionState.port = commandEvents (sessionCommands .c444 [onePicture]) ++ []
    ∧ sessionState.sinkScript = List.replicate (1 + 1) .takesAll ++ [] :=
  ⟨witness_inv_withPort witness_inv_idle _, by decide, by unfold State.canOpen; decide, by decide⟩

/-- A native picture of 3 by 3 whose pixels are all different; a session crops it to 2 by 2. -/
def nativePicture (i j : Nat) : Pixel := ⟨BitVec.ofNat 8 i, BitVec.ofNat 8 j, 7#8⟩

/-- The session in C420 that NW = NH = 3 opens, with the PIX commands of that picture to come. -/
def suppliedState : State :=
  { openState with
    nw := 3#32, nh := 3#32, mode := .c420, ew := 2#32, eh := 2#32,
    port := commandEvents ((suppliedPixels nativePicture 2 2).map fun p => .pix p) }

theorem witness_SuppliedPixelsAreTheCroppedPicture : Inv suppliedState ∧ suppliedState.session = .opened ∧ suppliedState.wp = 0#32
    ∧ suppliedState.port = commandEvents ((suppliedPixels nativePicture (cropWidth suppliedState.mode suppliedState.nw)
        (cropHeight suppliedState.mode suppliedState.nh)).map fun p => .pix p) ++ []
    ∧ 1 < 2 ∧ 1 < 2 :=
  ⟨by constructor <;> decide, by decide⟩

end Sys2Proof.Tests
end

namespace Sys2Proof

/-! ### A command's word decodes to the command (30_encoding R78) -/

/-- A word with an assigned opcode and no reserved operand bit set decodes to what the opcode's row makes of its operand. -/
theorem decode_word_ok {op : Byte} {arg : Word} {form : Form} {make : Word → Instr} (hop : operation op = some (form, make))
    (harg : arg.toNat < form.operandBound) : decode (op ++ arg) = .ok (make arg) := by
  rw [decode_word hop, if_pos harg]

theorem openWithCode_badmode {m : Byte} (h : 5 ≤ m.toNat) : openWithCode m = .openBadmode m := by
  unfold openWithCode
  split
  iterate 5 exact absurd h (by decide)
  rfl

theorem decode_encode {i : Instr} (hwf : i.wellFormed = true) : decode (encode i) = .ok i := by
  cases i with
  | setnw v => exact decode_word_ok rfl v.isLt
  | setnh v => exact decode_word_ok rfl v.isLt
  | setfrn v => exact decode_word_ok rfl v.isLt
  | setfrd v => exact decode_word_ok rfl v.isLt
  | setparn v => exact decode_word_ok rfl v.isLt
  | setpard v => exact decode_word_ok rfl v.isLt
  | setil c => exact (decode_word_ok rfl (Laws.LegalWord.byte_lt c)).trans (by simp)
  | extclr => rfl
  | extb c => exact (decode_word_ok rfl (Laws.LegalWord.byte_lt c)).trans (by simp)
  | openC444 => rfl
  | openC422 => rfl
  | openC420 => rfl
  | openC411 => rfl
  | openC410 => rfl
  | openBadmode m =>
    exact (decode_word_ok rfl (Laws.LegalWord.byte_lt m)).trans (by simp [openWithCode_badmode (of_decide_eq_true hwf)])
  | pix p => exact (decode_word_ok rfl (Laws.LegalWord.pixel_lt p)).trans (by simp)
  | frame => rfl
  | close => rfl
  | abort c => exact (decode_word_ok rfl (Laws.LegalWord.byte_lt c)).trans (by simp)
  | rd k => exact (decode_word_ok rfl (Laws.LegalWord.byte_lt k)).trans (by simp)
  | conv p => exact (decode_word_ok rfl (Laws.LegalWord.pixel_lt p)).trans (by simp)
  | reset => rfl

end Sys2Proof

namespace Sys2Proof.Machine

variable {s t : State} {m : Mode} {k : Nat} {rest : List PortEvent}

/-! ### Runs over the commands that stand in the port -/

theorem run_succ (h : step s = .next t) : core.run (k + 1) s = core.run k t := by
  simp only [Host.Core.run, show core.step s = .next t from h]

theorem run_add {a b : Nat} : ∀ {s : State}, core.run a s = .next t → core.run (a + b) s = core.run b t := by
  induction a with
  | zero => intro s h; cases h; rw [Nat.zero_add]
  | succ a ih =>
    intro s h
    rw [Nat.succ_add]
    cases hs : step s with
    | next u => rw [run_succ hs] at h ⊢; exact ih h
    | fault r => simp [Host.Core.run, core, hs] at h
    | refused r => simp [Host.Core.run, core, hs] at h

/-- A well-formed command at the head of the port is the one the next step performs. -/
theorem step_encode {i : Instr} (hwf : i.wellFormed = true) (hp : s.port = .command (encode i) :: rest) :
    step s = exec i (s.withPort rest) := step_command hp (decode_encode hwf)

/-! ### What the commands of a session do when their checks pass -/

theorem sinkAnswer_of_script {a : SinkAnswer} {answers : List SinkAnswer} (h : s.sinkScript = a :: answers) :
    s.sinkAnswer = a := by simp [State.sinkAnswer, h]

/-- The state after an OPEN that succeeds (44_session_commands R172 steps 6 to 8). -/
def State.afterOpen (s : State) (m : Mode) : State :=
  let u := s.startSession m (cropWidth m s.nw) (cropHeight m s.nh)
  let v := u.sinkTakes (header u).length (header u)
  v.done v.warnWord

/-- The state after a PIX that succeeds (R179). -/
def State.afterPix (s : State) (p : Pixel) : State := State.done 0#32 (s.pushPixel p)

/-- The state after a FRAME that succeeds (R180). -/
def State.afterFrame (s : State) : State :=
  State.done 0#32 (s.sinkTakes s.frameBytes.length s.frameBytes).finishFrame

theorem exec_openInstr_ok (hi : s.session = .idle) (ok : s.canOpen m) (hsink : s.sinkAnswer = .takesAll) :
    exec (openInstr m) s = .next (s.afterOpen m) := by
  obtain ⟨hw, hh, hgood, hcap⟩ := ok
  rw [exec_openInstr, whenIdle_idle hi]
  simp only [openSession, hw, hh, or_self, if_false, hgood, Bool.false_eq_true, Nat.not_lt.mpr hcap]
  have hsink' : (s.startSession m (cropWidth m s.nw) (cropHeight m s.nh)).sinkAnswer = .takesAll := hsink
  rw [emit_all (by rw [hsink', accepted_takesAll])]
  rfl

theorem exec_pix_ok (ho : s.session = .opened) (room : s.wp.toNat < s.pictureSize) (fits : s.pictureSize ≤ s.pbCapacity)
    (p : Pixel) : exec (.pix p) s = .next (s.afterPix p) := by
  have hroom : s.wp.toNat ≠ s.pictureSize := by omega
  have hinside : ¬ s.pbCapacity ≤ s.wp.toNat := by omega
  simp [exec, execPix, ho, hroom, hinside, State.afterPix]

theorem exec_frame_ok (ho : s.session = .opened) (full : s.wp.toNat = s.pictureSize) (fits : s.pictureSize ≤ s.pbCapacity)
    (hsink : s.sinkAnswer = .takesAll) : exec .frame s = .next s.afterFrame := by
  simp only [exec, execFrame, whenOpened_opened ho, full, ne_eq, not_true_eq_false, if_false, Nat.not_lt.mpr fits]
  rw [emit_all (by rw [hsink, accepted_takesAll])]
  rfl

theorem exec_close_ok (ho : s.session = .opened) (hwp : s.wp = 0#32) :
    exec .close s = .next (State.done 0#32 { s with session := .idle }) := by
  simp [exec, execClose, ho, hwp]

/-! ### Those commands keep the invariant -/

theorem cropWidth_lt (m : Mode) (nw : Word) : cropWidth m nw < 2 ^ 32 := Nat.lt_of_le_of_lt (Nat.sub_le _ _) nw.isLt

theorem cropHeight_lt (m : Mode) (nh : Word) : cropHeight m nh < 2 ^ 32 := Nat.lt_of_le_of_lt (Nat.sub_le _ _) nh.isLt

theorem cropWidth_mod (m : Mode) (nw : Word) : cropWidth m nw % m.hx = 0 :=
  Nat.mod_eq_zero_of_dvd (Nat.dvd_sub_mod nw.toNat)

theorem cropHeight_mod (m : Mode) (nh : Word) : cropHeight m nh % m.vy = 0 :=
  Nat.mod_eq_zero_of_dvd (Nat.dvd_sub_mod nh.toNat)

theorem startSession_ew_toNat (s : State) (m : Mode) (nw : Word) (h : Nat) :
    (s.startSession m (cropWidth m nw) h).ew.toNat = cropWidth m nw := Nat.mod_eq_of_lt (cropWidth_lt m nw)

theorem startSession_eh_toNat (s : State) (m : Mode) (nh : Word) (w : Nat) :
    (s.startSession m w (cropHeight m nh)).eh.toNat = cropHeight m nh := Nat.mod_eq_of_lt (cropHeight_lt m nh)

theorem Inv.withPort (h : Inv s) (rest : List PortEvent) : Inv (s.withPort rest) := { h with }

theorem Inv.done (h : Inv s) (d : Word) : Inv (s.done d) := { h with }

theorem Inv.sinkTakes (h : Inv s) (n : Nat) (bs : List Byte) : Inv (s.sinkTakes n bs) := { h with }

theorem Inv.finishFrame (h : Inv s) : Inv s.finishFrame :=
  { h with
    loaded := Nat.zero_le _
    idleEmpty := fun _ => rfl }

theorem wp_succ_toNat (h : Inv s) (room : s.wp.toNat < s.pictureSize) : (s.wp + 1#32).toNat = s.wp.toNat + 1 := by
  have hfits := h.fits
  obtain ⟨-, hcap⟩ := h.capacity
  rw [BitVec.toNat_add, show (1#32).toNat = 1 from rfl]
  omega

theorem Inv.pushPixel (h : Inv s) (ho : s.session = .opened) (room : s.wp.toNat < s.pictureSize) (p : Pixel) :
    Inv (s.pushPixel p) :=
  { h with
    pbForm := Memory.write_wf p (Nat.lt_of_lt_of_le room h.fits) h.pbForm
    loaded := (wp_succ_toNat h room).trans_le room
    idleEmpty := fun hi => by simp [ho] at hi }

theorem Inv.startSession (h : Inv s) (hi : s.session = .idle) (ok : s.canOpen m) :
    Inv (s.startSession m (cropWidth m s.nw) (cropHeight m s.nh)) := by
  obtain ⟨hw, hh, hgood, hcap⟩ := ok
  have hew := startSession_ew_toNat s m s.nw (cropHeight m s.nh)
  have heh := startSession_eh_toNat s m s.nh (cropWidth m s.nw)
  exact
    { h with
      faultShown := by simpa [hi] using h.faultShown
      advisory := rfl
      widthCropped := by rw [hew]; exact cropWidth_mod m s.nw
      heightCropped := by rw [heh]; exact cropHeight_mod m s.nh
      fits := by rw [State.pictureSize, hew, heh]; exact hcap
      loaded := Nat.zero_le _
      idleEmpty := fun _ => rfl
      nonEmpty := fun _ => by rw [hew, heh]; exact ⟨Nat.pos_of_ne_zero hw, Nat.pos_of_ne_zero hh⟩
      headerGood := fun _ => by rw [hew, heh]; exact hgood
      cropped := fun _ => ⟨hew, heh⟩ }

/-! ### The PIX commands of a frame -/

theorem pushPixel_pixelAt (h : Inv s) (p : Pixel) (a : Nat) :
    (s.pushPixel p).pixelAt a = if a = s.wp.toNat then p else s.pixelAt a := Memory.read_write _ p a h.pbForm

/-- A PIX that the picture has room for stores its pixel at WP and counts it, and changes nothing else but the responses
(44_session_commands R179). -/
theorem step_pix {p : Pixel} (h : Inv s) (ho : s.session = .opened) (room : s.wp.toNat < s.pictureSize)
    (hp : s.port = .command (encode (.pix p)) :: rest) :
    ∃ t : State, step s = .next t ∧ Inv t ∧ t = { s with pb := t.pb, wp := t.wp, port := rest, responses := t.responses }
      ∧ t.wp.toNat = s.wp.toNat + 1 ∧ ∀ a, t.pixelAt a = if a = s.wp.toNat then p else s.pixelAt a :=
  have h' : Inv (s.withPort rest) := h.withPort rest
  ⟨(s.withPort rest).afterPix p, (step_encode rfl hp).trans (exec_pix_ok (s := s.withPort rest) ho room h'.fits p),
    (h'.pushPixel ho room p).done _, rfl, wp_succ_toNat h' room, pushPixel_pixelAt h' p⟩

/-- PIX commands that the picture has room for store their pixels from WP on, in order, leave the pixels below WP as they were, and
change nothing else but WP and the responses (44_session_commands R179). -/
theorem run_pixels (pixels : List Pixel) : ∀ {s : State}, Inv s → s.session = .opened →
    s.wp.toNat + pixels.length ≤ s.pictureSize → s.port = commandEvents (pixels.map fun p => .pix p) ++ rest →
    ∃ t : State, core.run pixels.length s = .next t ∧ Inv t
      ∧ t = { s with pb := t.pb, wp := t.wp, port := rest, responses := t.responses }
      ∧ t.wp.toNat = s.wp.toNat + pixels.length
      ∧ (∀ a, a < s.wp.toNat → t.pixelAt a = s.pixelAt a)
      ∧ ∀ k, k < pixels.length → t.pixelAt (s.wp.toNat + k) = pixels.getD k Memory.blankPixel := by
  induction pixels with
  | nil =>
    intro s h ho _ hp
    obtain rfl : s.port = rest := hp
    exact ⟨s, rfl, h, rfl, rfl, fun _ _ => rfl, fun k hk => absurd hk (Nat.not_lt_zero k)⟩
  | cons p pixels ih =>
    intro s h ho hroom hp
    rw [List.length_cons] at hroom
    obtain ⟨u, hstep, huinv, hu, huwp, hupb⟩ := step_pix h ho (by omega) hp
    have husize : u.pictureSize = s.pictureSize := by rw [hu]; rfl
    obtain ⟨t, hrun, ht, hframe, htwp, hbelow, hloaded⟩ :=
      ih huinv (by rw [hu]; exact ho) (by rw [huwp, husize]; omega) (by rw [hu]; rfl)
    rw [huwp] at htwp hbelow hloaded
    refine ⟨t, (run_succ hstep).trans hrun, ht, hframe.trans (by rw [hu]), by rw [htwp, List.length_cons]; omega, ?_, ?_⟩
    · intro a ha
      rw [hbelow a (by omega), hupb, if_neg (by omega)]
    · intro k hk
      cases k with
      | zero => rw [Nat.add_zero, hbelow _ (Nat.lt_succ_self _), hupb, if_pos rfl, List.getD_cons_zero]
      | succ k => rw [Nat.add_comm k, ← Nat.add_assoc, hloaded k (by simpa using hk), Nat.add_comm 1, List.getD_cons_succ]

/-! ### A frame's bytes depend on the pixels of the picture only -/

theorem plane_congr {rows cols : Nat} {f g : Nat → Nat → Byte} (h : ∀ i j, i < rows → j < cols → f i j = g i j) :
    plane rows cols f = plane rows cols g :=
  List.flatMap_congr fun i hi => List.map_congr_left fun j hj => h i j (List.mem_range.mp hi) (List.mem_range.mp hj)

/-- The pixels that feed a chroma sample lie in the picture (42_subsampler R133). -/
theorem block_inside {w h i j : Nat} {c : Nat × Nat} (hi : i < h / m.vy) (hj : j < w / m.hx) (hc : c ∈ m.block i j) :
    c.1 < h ∧ c.2 < w := by
  obtain ⟨row, col⟩ := c
  cases m <;>
    (simp only [Mode.block, Mode.hx, Mode.vy, List.mem_cons, List.not_mem_nil, or_false, Prod.mk.injEq] at hi hj hc ⊢; omega)

theorem frameBytes_congr {w h : Nat} {px px' : Nat → Nat → Pixel} (heq : ∀ i j, i < h → j < w → px i j = px' i j) :
    frameBytes m w h px = frameBytes m w h px' := by
  have hblock : ∀ i j, i < h / m.vy → j < w / m.hx → blockPixels m px i j = blockPixels m px' i j := fun i j hi hj =>
    List.map_congr_left fun c hc => by
      obtain ⟨hrow, hcol⟩ := block_inside hi hj hc
      exact heq _ _ hrow hcol
  have hy : yPlane w h px = yPlane w h px' := plane_congr fun i j hi hj => by rw [heq i j hi hj]
  have hcb : cbPlane m w h px = cbPlane m w h px' := plane_congr fun i j hi hj => by rw [hblock i j hi hj]
  have hcr : crPlane m w h px = crPlane m w h px' := plane_congr fun i j hi hj => by rw [hblock i j hi hj]
  rw [frameBytes, frameBytes, planes, planes, hy, hcb, hcr]

/-- With the pixels of `pixels` in PB from index 0 on, FRAME's bytes are those of `pixels` as a picture. -/
theorem frameBytes_of_loaded {pixels : List Pixel} (hlen : pixels.length = s.pictureSize)
    (hpb : ∀ k, k < pixels.length → s.pixelAt k = pixels.getD k Memory.blankPixel) :
    s.frameBytes = frameBytes s.mode s.ew.toNat s.eh.toNat (pictureOf s.ew.toNat pixels) :=
  frameBytes_congr fun i j hi hj => hpb _ <| by
    rw [hlen, State.pictureSize]
    calc i * s.ew.toNat + j < (i + 1) * s.ew.toNat := by rw [Nat.succ_mul]; omega
      _ ≤ s.eh.toNat * s.ew.toNat := Nat.mul_le_mul_right _ hi
      _ = s.ew.toNat * s.eh.toNat := Nat.mul_comm _ _

/-! ### The frames of a session -/

/-- `t` is the open session `s` with these frames emitted since; what is loaded of the next frame is left open. -/
structure Framed (s : State) (frames : List (List Pixel)) (t : State) : Prop where
  inv : Inv t
  opened : t.session = .opened
  mode : t.mode = s.mode
  width : t.ew = s.ew
  height : t.eh = s.eh
  emitted : t.out = s.out ++ framesStream s.mode s.ew.toNat s.eh.toNat frames
  counted : t.frames = s.frames + BitVec.ofNat 32 frames.length

/-- Loading pixels emits no frame. -/
theorem Framed.nil (h : Inv t) (ho : s.session = .opened)
    (ht : t = { s with pb := t.pb, wp := t.wp, port := t.port, responses := t.responses }) : Framed s [] t where
  inv := h
  opened := by rw [ht]; exact ho
  mode := by rw [ht]
  width := by rw [ht]
  height := by rw [ht]
  emitted := by rw [ht]; exact (List.append_nil _).symm
  counted := by rw [ht]; exact (BitVec.add_zero _).symm

theorem Framed.append {u : State} {frames frames' : List (List Pixel)} (hst : Framed s frames t) (htu : Framed t frames' u) :
    Framed s (frames ++ frames') u where
  inv := htu.inv
  opened := htu.opened
  mode := htu.mode.trans hst.mode
  width := htu.width.trans hst.width
  height := htu.height.trans hst.height
  emitted := by simp [htu.emitted, hst.emitted, hst.mode, hst.width, hst.height, framesStream]
  counted := by rw [htu.counted, hst.counted, BitVec.add_assoc, List.length_append, BitVec.ofNat_add]

theorem Framed.size {frames : List (List Pixel)} (h : Framed s frames t) : t.pictureSize = s.pictureSize := by
  rw [State.pictureSize, State.pictureSize, h.width, h.height]

theorem Framed.afterFrame {pixels : List Pixel} (h : Inv s) (ho : s.session = .opened)
    (hbytes : s.frameBytes = frameBytes s.mode s.ew.toNat s.eh.toNat (pictureOf s.ew.toNat pixels)) :
    Framed s [pixels] s.afterFrame where
  inv := ((h.sinkTakes _ _).finishFrame).done _
  opened := by simpa [State.afterFrame] using ho
  mode := by simp [State.afterFrame]
  width := by simp [State.afterFrame]
  height := by simp [State.afterFrame]
  emitted := by simp [State.afterFrame, framesStream, hbytes]
  counted := by simp [State.afterFrame]

/-- The commands of one frame emit that frame (44_session_commands R179, R180). -/
theorem run_frame {pixels : List Pixel} {answers : List SinkAnswer} (h : Inv s) (ho : s.session = .opened) (hwp : s.wp = 0#32)
    (hlen : pixels.length = s.pictureSize) (hp : s.port = commandEvents (frameCommands pixels) ++ rest)
    (hsink : s.sinkScript = .takesAll :: answers) :
    ∃ t : State, core.run (frameCommands pixels).length s = .next t ∧ Framed s [pixels] t ∧ t.wp = 0#32 ∧ t.port = rest
      ∧ t.sinkScript = answers := by
  have hzero : s.wp.toNat = 0 := by rw [hwp]; rfl
  have hport : s.port = commandEvents (pixels.map fun p => .pix p) ++ (.command (encode .frame) :: rest) := by
    simp [hp, commandEvents, frameCommands]
  obtain ⟨u, hrun, hinv, hu, huwp, -, hpb⟩ := run_pixels pixels h ho (by omega) hport
  rw [hzero, Nat.zero_add] at huwp
  simp only [hzero, Nat.zero_add] at hpb
  have huport : u.port = .command (encode .frame) :: rest := by rw [hu]
  have huscript : u.sinkScript = .takesAll :: answers := by rw [hu]; exact hsink
  have hload : Framed s [] (u.withPort rest) := .nil (hinv.withPort rest) ho (by rw [hu]; rfl)
  have hfull : pixels.length = (u.withPort rest).pictureSize := hlen.trans hload.size.symm
  have hstep : step u = .next (u.withPort rest).afterFrame :=
    (step_encode rfl huport).trans
      (exec_frame_ok hload.opened (huwp.trans hfull) hload.inv.fits (sinkAnswer_of_script huscript))
  refine ⟨(u.withPort rest).afterFrame, ?_, hload.append ?_, rfl, rfl, congrArg List.tail huscript⟩
  · rw [frameCommands, List.length_append, List.length_map]
    exact (run_add hrun).trans (run_succ hstep)
  · exact Framed.afterFrame hload.inv hload.opened (frameBytes_of_loaded hfull hpb)

theorem run_frames {answers : List SinkAnswer} (frames : List (List Pixel)) : ∀ {s : State}, Inv s → s.session = .opened →
    s.wp = 0#32 → (∀ pixels ∈ frames, pixels.length = s.pictureSize) →
    s.port = commandEvents (frames.flatMap frameCommands) ++ rest →
    s.sinkScript = List.replicate frames.length .takesAll ++ answers →
    ∃ t : State, core.run (frames.flatMap frameCommands).length s = .next t ∧ Framed s frames t ∧ t.wp = 0#32 ∧ t.port = rest := by
  induction frames with
  | nil => intro s h ho hwp _ hp _; exact ⟨s, rfl, .nil h ho rfl, hwp, hp⟩
  | cons pixels frames ih =>
    intro s h ho hwp hlen hp hsink
    obtain ⟨hfirst, hothers⟩ := List.forall_mem_cons.mp hlen
    have hport : s.port = commandEvents (frameCommands pixels) ++ (commandEvents (frames.flatMap frameCommands) ++ rest) := by
      simp [hp, commandEvents]
    obtain ⟨t, hrun, ht, htwp, htport, htscript⟩ := run_frame h ho hwp hfirst hport hsink
    obtain ⟨u, hrun', hu, huwp, huport⟩ := ih ht.inv ht.opened htwp (by rwa [ht.size]) htport htscript
    refine ⟨u, ?_, ht.append hu, huwp, huport⟩
    rw [List.flatMap_cons, List.length_append]
    exact (run_add hrun).trans hrun'

/-! ### The whole session -/

theorem Inv.afterOpen (h : Inv s) (hi : s.session = .idle) (ok : s.canOpen m) : Inv (s.afterOpen m) :=
  ((h.startSession hi ok).sinkTakes _ _).done _

theorem afterOpen_out (s : State) (m : Mode) :
    (s.afterOpen m).out = s.out ++ header (s.committed m (cropWidth m s.nw) (cropHeight m s.nh)) :=
  congrArg (s.out ++ ·) List.take_length

/-- OPEN, with its checks passed and a sink that takes the header, commits and emits the header (44_session_commands R172). -/
theorem step_open {answers : List SinkAnswer} (h : Inv s) (hi : s.session = .idle) (ok : s.canOpen m)
    (hp : s.port = .command (encode (openInstr m)) :: rest) (hsink : s.sinkScript = .takesAll :: answers) :
    ∃ t : State, step s = .next t ∧ Inv t
      ∧ t = { s.committed m (cropWidth m s.nw) (cropHeight m s.nh) with
          bytes := t.bytes, port := rest, sinkScript := answers, sinkDraws := t.sinkDraws, responses := t.responses,
          out := s.out ++ header (s.committed m (cropWidth m s.nw) (cropHeight m s.nh)) } := by
  have hstep : step s = .next ((s.withPort rest).afterOpen m) :=
    (step_encode (by cases m <;> rfl) hp).trans (exec_openInstr_ok hi ok (sinkAnswer_of_script hsink))
  have hscript : ((s.withPort rest).afterOpen m).sinkScript = answers := congrArg List.tail hsink
  have hout : ((s.withPort rest).afterOpen m).out = s.out ++ header (s.committed m (cropWidth m s.nw) (cropHeight m s.nh)) :=
    afterOpen_out (s.withPort rest) m
  refine ⟨_, hstep, (h.withPort rest).afterOpen hi ok, ?_⟩
  rw [← hscript, ← hout]
  rfl

/-- CLOSE with no pixel loaded ends the session and emits nothing (44_session_commands R181). -/
theorem step_close (ho : s.session = .opened) (hwp : s.wp = 0#32) (hp : s.port = .command (encode .close) :: rest) :
    step s = .next (State.done 0#32 { s with session := .idle, port := rest }) :=
  (step_encode rfl hp).trans (exec_close_ok ho hwp)

/-- Settles O57: OPEN by its checks (`step_open`), the frames by induction (`run_frames`), then CLOSE (`step_close`). -/
theorem sessionEmitsItsStream : Obligations.SessionEmitsItsStream := by
  unfold Obligations.SessionEmitsItsStream
  intro s m frames rest answers h hi ok hlen hp hsink
  have hport : s.port = .command (encode (openInstr m)) ::
      (commandEvents (frames.flatMap frameCommands) ++ .command (encode .close) :: rest) := by
    simp [hp, commandEvents, sessionCommands]
  obtain ⟨u, hopen, huinv, hu⟩ := step_open h hi ok hport hsink
  have humode : u.mode = m := by rw [hu]; rfl
  have huopened : u.session = .opened := by rw [hu]; rfl
  obtain ⟨hew, heh⟩ : u.ew.toNat = cropWidth m s.nw ∧ u.eh.toNat = cropHeight m s.nh := by
    have hcrop := huinv.cropped huopened
    rwa [humode, show u.nw = s.nw by rw [hu]; rfl, show u.nh = s.nh by rw [hu]; rfl] at hcrop
  obtain ⟨v, hframes, hv, hvwp, hvport⟩ := run_frames (answers := answers) frames huinv huopened (by rw [hu]; rfl)
    (by rwa [State.pictureSize, hew, heh]) (by rw [hu]) (by rw [hu]; rfl)
  refine ⟨State.done 0#32 { v with session := .idle, port := rest }, ?_, rfl, ?_, rfl, ?_, ?_⟩
  · have hlength : (sessionCommands m frames).length = (frames.flatMap frameCommands).length + 1 + 1 := by
      simp only [sessionCommands, List.length_append, List.length_singleton]; omega
    rw [hlength, run_succ hopen, run_add hframes]
    exact run_succ (step_close hv.opened hvwp hvport)
  · exact hv.inv.faultShown.mpr (by simp [hv.opened])
  · exact hv.emitted.trans (by rw [humode, hew, heh, hu])
  · exact hv.counted.trans (by rw [hu]; exact BitVec.zero_add _)

end Sys2Proof.Machine

namespace Sys2Proof

/-! ### A word that decodes is the word of its command (30_encoding R74, R78) -/

theorem commandWord_byteOperand {op : Byte} {arg : Word} (h : arg.toNat < 256) :
    commandWord op ((byteOperand arg).setWidth 32) = op ++ arg := by
  rw [commandWord, setWidth_byteOperand h]

theorem commandWord_pixelOperand {op : Byte} {arg : Word} (h : arg.toNat < 2 ^ 24) :
    commandWord op (packPixel (pixelOperand arg)) = op ++ arg := by
  rw [commandWord, packPixel_pixelOperand h]

theorem commandWord_noOperand {op : Byte} {arg : Word} (h : arg.toNat < 1) : commandWord op 0#32 = op ++ arg := by
  obtain rfl : arg = 0#32 := BitVec.eq_of_toNat_eq (Nat.lt_one_iff.mp h)
  rfl

theorem encode_openWithCode (m : Byte) : encode (openWithCode m) = commandWord 0x20#8 (m.setWidth 32) := by
  unfold openWithCode
  split <;> rfl

/-- The command that an opcode's row makes of an operand is encoded as that opcode and that operand. -/
theorem encode_operation {op : Byte} {arg : Word} {form : Form} {make : Word → Instr} (hop : operation op = some (form, make))
    (harg : arg.toNat < form.operandBound) : encode (make arg) = op ++ arg := by
  unfold operation at hop
  split at hop <;> cases hop
  -- SETIL, EXTB, ABORT, RD: forms B, E and R
  case h_7 | h_9 | h_14 | h_15 => exact commandWord_byteOperand harg
  -- EXTCLR, FRAME, CLOSE, RESET: form N
  case h_8 | h_12 | h_13 | h_17 => exact commandWord_noOperand harg
  -- OPEN: form M
  case h_10 => exact (encode_openWithCode _).trans (commandWord_byteOperand harg)
  -- PIX, CONV: form P
  case h_11 | h_16 => exact commandWord_pixelOperand harg
  -- the SET commands of form W
  all_goals rfl

theorem encode_of_decode {w : PortWord} {i : Instr} (h : decode w = .ok i) : encode i = w := by
  unfold decode at h
  split at h
  · cases h
  · next form make hop =>
    split at h
    · next haccepts =>
      cases h
      rw [encode_operation hop ((Form.accepts_iff form _).mp haccepts), word_of_fields]
    · cases h

end Sys2Proof

namespace Sys2Proof.Machine

variable {s t : State} {i : Instr} {rest : List PortEvent}

/-! ### What a step can do, resets and other steps apart -/

/-- A reset gives the reset registers, with a response for RESET and none for the hardware reset (70_reset_and_hazards R230). -/
theorem step_reset (hr : s.nextIsReset) (h : step s = .next t) :
    ∃ rest, t = (s.withPort rest).toReset ∨ t = State.done 0#32 (s.withPort rest).toReset := by
  rcases hr with hport | hport <;> obtain ⟨rest, hp⟩ := List.head?_eq_some_iff.mp hport
  · cases (step_hardwareReset hp).symm.trans h
    exact ⟨rest, .inl rfl⟩
  · cases (step_encode (i := .reset) rfl hp).symm.trans h
    exact ⟨rest, .inr rfl⟩

/-- What an illegal word does: IllegalCommand outside FAILED, a response alone in it (44_session_commands R160). -/
theorem rejectIllegal_cases (op : Byte) (s : State) :
    (s.session ≠ .failed ∧ s.rejectIllegal op = s.raise .illegalCommand)
      ∨ (s.session = .failed ∧ ∃ e, s.rejectIllegal op = s.respond e 0#32) := by
  by_cases hf : s.session = .failed
  · refine .inr ⟨hf, ?_⟩
    rw [rejectIllegal_failed op hf]
    split
    · exact ⟨_, rfl⟩
    · exact ⟨sessionFailedCode, rfl⟩
  · exact .inl ⟨hf, rejectIllegal_live op hf⟩

/-- Everything a step other than a reset can do: wait, perform the command whose word it takes, or reject an illegal word. -/
theorem step_cases_of_not_reset (hr : ¬ s.nextIsReset) (h : step s = .next t) :
    t = s
      ∨ (∃ rest i, s.nextIs i ∧ i ≠ .reset ∧ Took (s.withPort rest) i t)
      ∨ (∃ rest, s.session ≠ .failed ∧ t = (s.withPort rest).raise .illegalCommand)
      ∨ ∃ rest e, s.session = .failed ∧ t = (s.withPort rest).respond e 0#32 := by
  rcases step_cases h with ⟨-, rfl⟩ | ⟨rest, hp, -⟩ | ⟨w, rest, i, hp, hd, ht⟩ | ⟨w, rest, e, -, -, rfl⟩
  · exact .inl rfl
  · exact absurd (.inl (by rw [hp]; rfl)) hr
  · have hnext : s.nextIs i := by rw [State.nextIs, hp, encode_of_decode hd]; rfl
    refine .inr (.inl ⟨rest, i, hnext, ?_, ht⟩)
    rintro rfl
    exact hr (.inr hnext)
  · rcases rejectIllegal_cases (opOf w) (s.withPort rest) with ⟨hlive, hrej⟩ | ⟨hf, e, hrej⟩
    · exact .inr (.inr (.inl ⟨rest, hlive, hrej⟩))
    · exact .inr (.inr (.inr ⟨rest, e, hf, hrej⟩))

/-! ### The invariant at reset and under each operation -/

/-- The reset registers meet the invariant over any memories that are in form. -/
theorem inv_toReset (hcap : 1 ≤ s.pbCapacity ∧ s.pbCapacity < 2 ^ 32)
    (hext : Memory.wf Memory.blankByte Config.extMax s.ext = true)
    (hpb : Memory.wf Memory.blankPixel s.pbCapacity s.pb = true) : Inv s.toReset where
  capacity := hcap
  extForm := hext
  pbForm := hpb
  extLength := Nat.zero_le _
  faultShown := by simp
  advisory := rfl
  widthCropped := rfl
  heightCropped := rfl
  fits := Nat.zero_le _
  loaded := Nat.zero_le _
  idleEmpty := fun _ => rfl
  nonEmpty := fun h => by simp at h
  headerGood := fun h => by simp at h
  cropped := fun h => by simp at h

theorem pbCapacity_range : 1 ≤ Config.pbCapacity ∧ Config.pbCapacity < 2 ^ 32 := by
  have := Config.pbCapacitySlack.isLt
  unfold Config.pbCapacity
  omega

theorem Inv.toReset (h : Inv s) : Inv s.toReset := inv_toReset h.capacity h.extForm h.pbForm

theorem Inv.respond (h : Inv s) (e : Byte) (d : Word) : Inv (s.respond e d) := { h with }

theorem Inv.raise (h : Inv s) (c : ErrorCode) : Inv (s.raise c) :=
  { h with
    faultShown := by simp
    idleEmpty := fun hi => by simp at hi
    nonEmpty := fun ho => by simp at ho
    headerGood := fun ho => by simp at ho
    cropped := fun ho => by simp at ho }

/-- In IDLE the invariant asks nothing of the configuration (10_state R45). -/
theorem Inv.configured (h : Inv s) (hi : s.session = .idle) (nw nh frn frd parn pard : Word) (il : Byte) :
    Inv { s with nw := nw, nh := nh, frn := frn, frd := frd, parn := parn, pard := pard, il := il } :=
  { h with
    headerGood := fun ho => by simp [hi] at ho
    cropped := fun ho => by simp [hi] at ho }

/-- The invariant asks of the extension only its form and its length, in every session state (10_state R36). -/
theorem Inv.extended (h : Inv s) {ext : List Host.Cell} {extlen : Word}
    (hform : Memory.wf Memory.blankByte Config.extMax ext = true) (hlen : extlen.toNat ≤ 201) :
    Inv { s with ext := ext, extlen := extlen } :=
  { h with
    extForm := hform
    extLength := hlen }

theorem Inv.pushExt (h : Inv s) (c : Byte) : Inv (s.pushExt c) := by
  by_cases hroom : s.extlen.toNat < 200
  · rw [State.pushExt_stored c s hroom]
    have hlen : (s.extlen + 1#32).toNat ≤ 201 := by
      rw [BitVec.toNat_add, show (1#32).toNat = 1 from rfl]
      omega
    exact h.extended (Memory.write_wf c hroom h.extForm) hlen
  · rw [State.pushExt_dropped c s (Nat.le_of_not_lt hroom)]
    exact h.extended h.extForm (Nat.le_refl 201)

theorem Inv.closed (h : Inv s) (ho : s.session = .opened) (hwp : s.wp = 0#32) : Inv { s with session := .idle } :=
  { h with
    faultShown := by simpa [ho] using h.faultShown
    idleEmpty := fun _ => hwp
    nonEmpty := fun ho => by simp at ho
    headerGood := fun ho => by simp at ho
    cropped := fun ho => by simp at ho }

/-! ### Every command and every step keeps the invariant -/

theorem Inv.took (h : Inv s) (ht : Took s i t) : Inv t := by
  cases ht with
  | refused => exact h.respond _ _
  | faulted => exact h.raise _
  | badIndex => exact h.respond _ _
  | setnw v hi => exact (h.configured hi v ..).done _
  | setnh v hi => exact (h.configured hi _ v ..).done _
  | setfrn v hi => exact (h.configured hi _ _ v ..).done _
  | setfrd v hi => exact (h.configured hi _ _ _ v ..).done _
  | setparn v hi => exact (h.configured hi _ _ _ _ v ..).done _
  | setpard v hi => exact (h.configured hi _ _ _ _ _ v _).done _
  | setil c hi => exact (h.configured hi _ _ _ _ _ _ c).done _
  | extclr => exact (h.extended (extlen := 0#32) h.extForm (Nat.zero_le 201)).done _
  | extb c => exact (h.pushExt c).done _
  | opened m u hi ok hu => subst hu; exact ((h.startSession hi ok).sinkTakes _ _).done _
  | openShort m u hi ok hu => subst hu; exact ((h.startSession hi ok).sinkTakes _ _).raise _
  | pix p ho room => exact (h.pushPixel ho (Nat.lt_of_le_of_ne h.loaded room) p).done _
  | frame => exact (h.sinkTakes _ _).finishFrame.done _
  | frameShort => exact (h.sinkTakes _ _).raise _
  | close ho hwp => exact (h.closed ho hwp).done _
  | rd => exact h.done _
  | conv => exact h.done _
  | reset => exact h.toReset.done _

/-- Settles O48: a reset restores the invariant (`Inv.toReset`), a command keeps it (`Inv.took`), an illegal word raises or answers. -/
theorem invariantKept : Obligations.InvariantKept := by
  unfold Obligations.InvariantKept
  intro s t h hstep
  by_cases hr : s.nextIsReset
  · obtain ⟨rest, rfl | rfl⟩ := step_reset hr hstep
    · exact (h.withPort rest).toReset
    · exact (h.withPort rest).toReset.done _
  · rcases step_cases_of_not_reset hr hstep with rfl | ⟨rest, i, -, -, ht⟩ | ⟨rest, -, rfl⟩ | ⟨rest, e, -, rfl⟩
    · exact h
    · exact (h.withPort rest).took ht
    · exact (h.withPort rest).raise _
    · exact (h.withPort rest).respond e _

/-- Settles O47: the memories list nothing and PB_CAPACITY is in its range, whatever value it has. -/
theorem invariantAtReset : Obligations.InvariantAtReset := by
  unfold Obligations.InvariantAtReset
  exact inv_toReset (s := State.reset) pbCapacity_range rfl rfl

/-! ### The session state (10_state R22) -/

theorem Took.session_moves (h : Took s i t) (hr : i ≠ .reset) :
    t.session = s.session
      ∨ (s.session = .idle ∧ t.session = .opened ∧ ∃ m, i = openInstr m)
      ∨ (s.session = .opened ∧ t.session = .idle ∧ i = .close)
      ∨ (s.session ≠ .failed ∧ t.session = .failed ∧ t.err ≠ none) := by
  cases h with
  | opened m u hi ok hu => exact .inr (.inl ⟨hi, by rw [hu]; rfl, m, rfl⟩)
  | close ho => exact .inr (.inr (.inl ⟨ho, rfl, rfl⟩))
  | faulted _ _ hlive => exact .inr (.inr (.inr ⟨hlive, rfl, by simp⟩))
  | openShort m u hi => exact .inr (.inr (.inr ⟨by simp [hi], rfl, by simp⟩))
  | frameShort ho => exact .inr (.inr (.inr ⟨by simp [ho], rfl, by simp⟩))
  | reset => exact absurd rfl hr
  | _ => exact .inl (by simp)

/-- Settles O14: a reset goes to IDLE from each state, any other step moves as its command does (`Took.session_moves`). -/
theorem sessionTransitions : Obligations.SessionTransitions := by
  unfold Obligations.SessionTransitions
  intro s t hstep
  by_cases hr : s.nextIsReset
  · have hidle : t.session = .idle := by obtain ⟨rest, rfl | rfl⟩ := step_reset hr hstep <;> rfl
    cases hs : s.session with
    | idle => exact .inl hidle
    | opened => exact .inr (.inr (.inl ⟨rfl, hidle, .inr hr⟩))
    | failed => exact .inr (.inr (.inr (.inr ⟨rfl, hidle, hr⟩)))
  · rcases step_cases_of_not_reset hr hstep with rfl | ⟨rest, i, hi, hne, ht⟩ | ⟨rest, hlive, rfl⟩ | ⟨rest, e, -, rfl⟩
    · exact .inl rfl
    · rcases ht.session_moves hne with hsame | ⟨hidle, hopen, m, rfl⟩ | ⟨hopen, hidle, rfl⟩ | hfault
      · exact .inl hsame
      · exact .inr (.inl ⟨hidle, hopen, m, hi⟩)
      · exact .inr (.inr (.inl ⟨hopen, hidle, .inl hi⟩))
      · exact .inr (.inr (.inr (.inl hfault)))
    · exact .inr (.inr (.inr (.inl ⟨hlive, rfl, by simp⟩)))
    · exact .inl rfl

/-! ### BYTES (10_state R35) -/

theorem exec_rd_bytesLo (s : State) : exec (.rd 0x0E#8) s = .next (s.answered (0#8 ++ BitVec.ofNat 32 s.bytes.toNat)) := rfl

theorem exec_rd_bytesHi (s : State) :
    exec (.rd 0x0F#8) s = .next (s.answered (0#8 ++ BitVec.ofNat 32 (s.bytes.toNat / 2 ^ 32))) := by
  rw [← Nat.shiftRight_eq_div_pow]
  rfl

theorem Took.bytes_counted (h : Took s i t) (hr : i ≠ .reset) (hs : s.session ≠ .idle) :
    t.bytes = s.bytes + BitVec.ofNat 64 (t.out.length - s.out.length) := by
  cases h with
  | frameShort _ _ _ short => simp [Nat.min_eq_left short.le]
  | reset => exact absurd rfl hr
  | refused | faulted | badIndex | pix | frame | close | rd | conv => simp
  | _ => exact absurd ‹s.session = .idle› hs

theorem Took.bytes_of_idle (h : Took s i t) (hi : s.session = .idle)
    (hopen : t.session = .opened ∨ (t.session = .failed ∧ t.err = some .io)) :
    t.bytes = BitVec.ofNat 64 (t.out.length - s.out.length) := by
  cases h with
  | opened m u _ _ hu => subst hu; simp
  | openShort m u _ _ hu short => subst hu; simp [Nat.min_eq_left short.le]
  | faulted _ c _ _ precise => exact absurd (by simpa using hopen) precise
  | refused _ hs | badIndex _ hs | pix _ hs | frame hs | frameShort hs | close hs => exact absurd (hi.symm.trans hs) (by decide)
  | _ => simp [hi] at hopen

theorem Took.bytes_kept (h : Took s i t) (hr : i ≠ .reset) (hopen : ∀ m, i ≠ openInstr m) (hframe : i ≠ .frame) :
    t.bytes = s.bytes := by
  cases h with
  | opened m | openShort m => exact absurd rfl (hopen m)
  | frame | frameShort => exact absurd rfl hframe
  | reset => exact absurd rfl hr
  | _ => simp

/-- Settles O52: only a command whose bytes the sink was offered changes BYTES, by what the sink took. -/
theorem bytesCountsAcceptedBytes : Obligations.BytesCountsAcceptedBytes := by
  unfold Obligations.BytesCountsAcceptedBytes
  refine ⟨fun s => ⟨exec_rd_bytesLo s, exec_rd_bytesHi s⟩, ?_⟩
  intro s t hstep hr
  rcases step_cases_of_not_reset hr hstep with rfl | ⟨rest, i, hi, hne, ht⟩ | ⟨rest, -, rfl⟩ | ⟨rest, e, -, rfl⟩
  · exact ⟨fun _ => by simp, fun hidle => by simp [hidle], fun _ _ => rfl⟩
  · refine ⟨fun ho => ht.bytes_counted hne (by simp [State.withPort, ho]), ht.bytes_of_idle, fun hopen hframe => ht.bytes_kept hne ?_ ?_⟩
    · rintro m rfl
      exact hopen m hi
    · rintro rfl
      exact hframe hi
  · exact ⟨fun _ => by simp [State.withPort], fun _ hopen => by simp at hopen, fun _ _ => rfl⟩
  · exact ⟨fun _ => by simp [State.withPort], fun hidle => by simp [State.withPort, hidle], fun _ _ => rfl⟩

/-! ### The configuration, the extension and OPEN's registers (10_state R31, R32, R37, R45) -/

theorem legalInIdleOnly_of_whenIdle {run : State → Result} (h : ∀ s, exec i s = whenIdle run s) : LegalInIdleOnly i :=
  fun s => ⟨fun ho => by rw [h, whenIdle_opened ho]; rfl, fun hf => by rw [h, whenIdle_failed hf]; rfl⟩

theorem Took.configuration_kept (h : Took s i t) (hr : i ≠ .reset) (hs : s.session ≠ .idle) :
    t.nw = s.nw ∧ t.nh = s.nh ∧ t.frn = s.frn ∧ t.frd = s.frd ∧ t.parn = s.parn ∧ t.pard = s.pard ∧ t.il = s.il
      ∧ t.extlen = s.extlen ∧ t.ext = s.ext := by
  cases h with
  | reset => exact absurd rfl hr
  | refused | faulted | badIndex | pix | frame | frameShort | close | rd | conv => simp
  | _ => exact absurd ‹s.session = .idle› hs

/-- Settles O53: outside IDLE no command but RESET writes them (`Took.configuration_kept`), and their writers run under `whenIdle`. -/
theorem configurationIsWrittenInIdleOnly : Obligations.ConfigurationIsWrittenInIdleOnly := by
  unfold Obligations.ConfigurationIsWrittenInIdleOnly
  refine ⟨?_, fun v => ⟨?_, ?_, ?_, ?_, ?_, ?_⟩, ?_, fun c => ⟨?_, ?_⟩⟩
  · intro s t hs hstep hr
    rcases step_cases_of_not_reset hr hstep with rfl | ⟨rest, i, -, hne, ht⟩ | ⟨rest, -, rfl⟩ | ⟨rest, e, -, rfl⟩
    · simp
    · exact ht.configuration_kept hne hs
    · simp [State.withPort]
    · simp [State.withPort]
  all_goals exact legalInIdleOnly_of_whenIdle fun _ => rfl

theorem Took.openRegisters_kept (h : Took s i t) (hr : i ≠ .reset) (hopen : ∀ m, i ≠ openInstr m) :
    t.mode = s.mode ∧ t.ew = s.ew ∧ t.eh = s.eh ∧ t.warn = s.warn := by
  cases h with
  | opened m | openShort m => exact absurd rfl (hopen m)
  | reset => exact absurd rfl hr
  | _ => simp

/-- Settles O54: no command but OPEN and RESET writes them (`Took.openRegisters_kept`). -/
theorem openRegistersWriters : Obligations.OpenRegistersWriters := by
  unfold Obligations.OpenRegistersWriters
  intro s t hstep hr hopen
  rcases step_cases_of_not_reset hr hstep with rfl | ⟨rest, i, hi, hne, ht⟩ | ⟨rest, -, rfl⟩ | ⟨rest, e, -, rfl⟩
  · simp
  · refine ht.openRegisters_kept hne ?_
    rintro m rfl
    exact hopen m hi
  · simp [State.withPort]
  · simp [State.withPort]

end Sys2Proof.Machine

namespace Sys2Proof.Machine

variable {s s' t t' : State} {i : Instr} {run : State → Result} {f : State → State}

/-! ### The stops of PIX and FRAME, and the sink's answers (20_memory R52, R58) -/

/-- Settles O27: the invariant's `fits` and `loaded` exclude both indices; on such an index each command reaches its stop. -/
theorem missingPixelStops : Obligations.MissingPixelStops := by
  unfold Obligations.MissingPixelStops
  refine ⟨fun s h => ⟨h.fits, fun room => ?_⟩, fun s p ho => ⟨fun room hcap => ?_, fun full hcap => ?_⟩⟩
  · exact Nat.lt_of_lt_of_le (Nat.lt_of_le_of_ne h.loaded room) h.fits
  · rw [exec, execPix, whenOpened_opened ho]
    exact (if_neg room).trans (if_pos hcap)
  · rw [exec, execFrame, whenOpened_opened ho]
    exact (if_neg (not_not_intro full)).trans (if_pos hcap)

/-- Settles O55: an answer is capped at the length, and the answer `takes n` gives any `n` up to it. -/
theorem sinkAcceptsAnyPrefix : Obligations.SinkAcceptsAnyPrefix := by
  unfold Obligations.SinkAcceptsAnyPrefix
  exact fun len => ⟨fun a => accepted_le a len, fun n hn => ⟨.takes n, accepted_any hn⟩⟩

/-! ### The environment's part of a step (20_memory R57, R60) -/

/-- `t` is `s` later: the same events still to arrive and the same PB_CAPACITY, the two histories longer at their ends at most. -/
structure Grown (s t : State) : Prop where
  port : t.port = s.port
  pbCapacity : t.pbCapacity = s.pbCapacity
  out : s.out <+: t.out
  responses : s.responses <+: t.responses

/-- No command looks at the port, and none shortens a history. -/
theorem Took.grown (h : Took s i t) : Grown s t := by
  cases h with
  | opened m u _ _ hu | openShort m u _ _ hu => subst hu; constructor <;> simp
  | _ => constructor <;> simp

theorem rejectIllegal_grown (op : Byte) (s : State) : Grown s (s.rejectIllegal op) := by
  rcases rejectIllegal_cases op s with ⟨-, hrej⟩ | ⟨-, e, hrej⟩
  · rw [hrej]; constructor <;> simp
  · rw [hrej]; constructor <;> simp

/-- Settles O50: an event is taken first, and what is then done with it only lengthens the histories (`Took.grown`). -/
theorem environmentHistoriesGrow : Obligations.EnvironmentHistoriesGrow := by
  unfold Obligations.EnvironmentHistoriesGrow
  intro s t hstep
  rcases step_cases hstep with ⟨hp, rfl⟩ | ⟨rest, hp, rfl⟩ | ⟨w, rest, i, hp, -, ht⟩ | ⟨w, rest, e, hp, -, rfl⟩
  · simp [hp]
  · simp [hp]
  · obtain ⟨hport, hcap, hout, hresp⟩ := ht.grown
    exact ⟨by rw [hport, hp, List.tail_cons], hcap, hout, hresp⟩
  · obtain ⟨hport, hcap, hout, hresp⟩ := rejectIllegal_grown (opOf w) { s with port := rest }
    exact ⟨by rw [hport, hp, List.tail_cons], hcap, hout, hresp⟩

theorem Took.out_kept (h : Took s i t) (hopen : ∀ m, i ≠ openInstr m) (hframe : i ≠ .frame) : t.out = s.out := by
  cases h with
  | opened m | openShort m => exact absurd rfl (hopen m)
  | frame | frameShort => exact absurd rfl hframe
  | _ => simp

/-- Settles O51: a reset leaves the sink's record, an illegal word only answers, and of the commands only OPEN and FRAME emit
(`Took.out_kept`). -/
theorem onlyOpenAndFrameEmit : Obligations.OnlyOpenAndFrameEmit := by
  unfold Obligations.OnlyOpenAndFrameEmit
  intro s t hstep hout
  by_cases hr : s.nextIsReset
  · obtain ⟨rest, rfl | rfl⟩ := step_reset hr hstep <;> exact absurd rfl hout
  · rcases step_cases_of_not_reset hr hstep with rfl | ⟨rest, i, hi, -, ht⟩ | ⟨rest, -, rfl⟩ | ⟨rest, e, -, rfl⟩
    · exact absurd rfl hout
    · by_contra hother
      obtain ⟨hframe, hopen⟩ := not_or.mp hother
      refine hout (ht.out_kept ?_ ?_)
      · rintro m rfl
        exact hopen ⟨m, hi⟩
      · rintro rfl
        exact hframe hi
    · exact absurd rfl hout
    · exact absurd rfl hout

/-! ### States that differ in unread contents only (20_memory R54, R55; 93_implementation_defined U1, U2) -/

/-- The state with other contents of PB and EXT, all else as it was. -/
def State.withMemories (s : State) (pb : List (Nat × Pixel)) (ext : List Host.Cell) : State := { s with pb := pb, ext := ext }

/-- The update neither reads nor writes PB and EXT. -/
def BlindToMemories (f : State → State) : Prop :=
  ∀ (u : State) (pb : List (Nat × Pixel)) (ext : List Host.Cell), f (u.withMemories pb ext) = (f u).withMemories pb ext

theorem BlindToMemories.pb_ext (hf : BlindToMemories f) (u : State) : (f u).pb = u.pb ∧ (f u).ext = u.ext := by
  have hu : f u = (f u).withMemories u.pb u.ext := hf u u.pb u.ext
  rw [hu]
  exact ⟨rfl, rfl⟩

/-- The second state of such a pair is the first one with other memories. -/
theorem SameButUnread.eq_withMemories (h : SameButUnread s s') : s' = s.withMemories s'.pb s'.ext := h.fields

/-- An update blind to the memories keeps the two states alike when it counts no pixel or extension byte as loaded that was not. -/
theorem SameButUnread.map (h : SameButUnread s s') (hf : BlindToMemories f)
    (hwp : (f s).wp.toNat ≤ s.wp.toNat) (hlen : min (f s).extlen.toNat Config.extMax ≤ s.extlen.toNat) :
    SameButUnread (f s) (f s') := by
  obtain ⟨hpb, hext⟩ := hf.pb_ext s
  obtain ⟨hpb', hext'⟩ := hf.pb_ext s'
  refine ⟨?_, fun i hi => ?_, fun i hi hmax => ?_⟩
  · rw [hpb', hext', h.eq_withMemories]
    exact hf s _ _
  · rw [State.pixelAt, State.pixelAt, hpb, hpb']
    exact h.pixels i (Nat.lt_of_lt_of_le hi hwp)
  · rw [State.extAt, State.extAt, hext, hext']
    exact h.extension i (Nat.lt_of_lt_of_le (Nat.lt_min.mpr ⟨hi, hmax⟩) hlen) hmax

theorem SameButUnread.map_counters (h : SameButUnread s s') (hf : BlindToMemories f)
    (hwp : (f s).wp = s.wp) (hlen : (f s).extlen = s.extlen) : SameButUnread (f s) (f s') :=
  h.map hf (by rw [hwp]) (by rw [hlen]; exact Nat.min_le_left _ _)

theorem SameButUnread.respond (h : SameButUnread s s') (e : Byte) (d : Word) : SameButUnread (s.respond e d) (s'.respond e d) :=
  h.map_counters (f := State.respond e d) (fun _ _ _ => rfl) rfl rfl

theorem SameButUnread.raise (h : SameButUnread s s') (c : ErrorCode) : SameButUnread (s.raise c) (s'.raise c) :=
  h.map_counters (f := State.raise c) (fun _ _ _ => rfl) rfl rfl

theorem SameButUnread.withPort (h : SameButUnread s s') (rest : List PortEvent) :
    SameButUnread (s.withPort rest) (s'.withPort rest) :=
  h.map_counters (f := fun u => u.withPort rest) (fun _ _ _ => rfl) rfl rfl

theorem SameButUnread.sinkTakes (h : SameButUnread s s') (n : Nat) (bs : List Byte) :
    SameButUnread (s.sinkTakes n bs) (s'.sinkTakes n bs) :=
  h.map_counters (f := State.sinkTakes n bs) (fun _ _ _ => rfl) rfl rfl

theorem SameButUnread.toReset (h : SameButUnread s s') : SameButUnread s.toReset s'.toReset :=
  h.map (f := State.toReset) (fun _ _ _ => rfl) (Nat.zero_le _) (Nat.zero_le _)

theorem SameButUnread.finishFrame (h : SameButUnread s s') : SameButUnread s.finishFrame s'.finishFrame :=
  h.map (f := State.finishFrame) (fun _ _ _ => rfl) (Nat.zero_le _) (Nat.min_le_left _ _)

theorem SameButUnread.startSession (h : SameButUnread s s') (m : Mode) (w k : Nat) :
    SameButUnread (s.startSession m w k) (s'.startSession m w k) :=
  h.map (f := State.startSession m w k) (fun _ _ _ => rfl) (Nat.zero_le _) (Nat.min_le_left _ _)

theorem SameButUnread.closed (h : SameButUnread s s') : SameButUnread { s with session := .idle } { s' with session := .idle } :=
  h.map_counters (f := fun u => { u with session := .idle }) (fun _ _ _ => rfl) rfl rfl

theorem SameButUnread.clearExt (h : SameButUnread s s') : SameButUnread { s with extlen := 0#32 } { s' with extlen := 0#32 } :=
  h.map (f := fun u => { u with extlen := 0#32 }) (fun _ _ _ => rfl) (Nat.le_refl _) (Nat.zero_le _)

theorem SameButUnread.session (h : SameButUnread s s') : s'.session = s.session := by rw [h.fields]

theorem SameButUnread.port (h : SameButUnread s s') : s'.port = s.port := by rw [h.fields]

theorem SameButUnread.wp (h : SameButUnread s s') : s'.wp = s.wp := by rw [h.fields]

theorem SameButUnread.extlen (h : SameButUnread s s') : s'.extlen = s.extlen := by rw [h.fields]

theorem SameButUnread.pbCapacity (h : SameButUnread s s') : s'.pbCapacity = s.pbCapacity := by rw [h.fields]

theorem SameButUnread.pictureSize (h : SameButUnread s s') : s'.pictureSize = s.pictureSize := by rw [h.fields]; rfl

theorem SameButUnread.sinkAnswer (h : SameButUnread s s') : s'.sinkAnswer = s.sinkAnswer := by rw [h.fields]; rfl

theorem SameButUnread.warnWord (h : SameButUnread s s') : s'.warnWord = s.warnWord := by rw [h.fields]; rfl

theorem SameButUnread.readReg (h : SameButUnread s s') (r : ControlReg) : s'.readReg r = s.readReg r := by
  rw [h.fields]
  cases r <;> rfl

theorem SameButUnread.headerBad (h : SameButUnread s s') (w k : Nat) : headerBad w k s' = headerBad w k s := by
  rw [h.fields]
  rfl

/-- PIX stores the same pixel at the same WP, so the pixels below the new WP are alike. -/
theorem SameButUnread.pushPixel (h : SameButUnread s s') (hs : Inv s) (hs' : Inv s') (p : Pixel) :
    SameButUnread (s.pushPixel p) (s'.pushPixel p) := by
  refine ⟨?_, fun i hi => ?_, h.extension⟩
  · rw [State.pushPixel, h.fields]
    rfl
  · rw [pushPixel_pixelAt hs, pushPixel_pixelAt hs', h.wp]
    have hnext : (s.wp + 1#32).toNat ≤ s.wp.toNat + 1 := Nat.mod_le _ _
    by_cases hlast : i = s.wp.toNat
    · rw [if_pos hlast, if_pos hlast]
    · rw [if_neg hlast, if_neg hlast]
      exact h.pixels i (Nat.lt_of_le_of_ne (Nat.le_of_lt_succ (Nat.lt_of_lt_of_le hi hnext)) hlast)

theorem pushExt_extAt (h : Inv s) (c : Byte) (hroom : s.extlen.toNat < 200) (a : Nat) :
    (s.pushExt c).extAt a = if a = s.extlen.toNat then c else s.extAt a := by
  rw [State.pushExt_stored c s hroom]
  exact Memory.read_write _ c a h.extForm

/-- EXTB stores the same byte at the same EXTLEN, or drops it in both states. -/
theorem SameButUnread.pushExt (h : SameButUnread s s') (hs : Inv s) (hs' : Inv s') (c : Byte) :
    SameButUnread (s.pushExt c) (s'.pushExt c) := by
  by_cases hroom : s.extlen.toNat < 200
  · have hroom' : s'.extlen.toNat < 200 := by rw [h.extlen]; exact hroom
    refine ⟨?_, fun i hi => ?_, fun i hi hmax => ?_⟩
    · rw [State.pushExt_stored c s hroom, State.pushExt_stored c s' hroom', h.fields]
    · rw [State.pushExt_wp] at hi
      rw [State.pixelAt, State.pixelAt, State.pushExt_pb, State.pushExt_pb]
      exact h.pixels i hi
    · rw [pushExt_extAt hs c hroom, pushExt_extAt hs' c hroom', h.extlen]
      have hnext : (s.pushExt c).extlen.toNat ≤ s.extlen.toNat + 1 := by
        rw [State.pushExt_stored c s hroom]
        exact Nat.mod_le _ _
      by_cases hlast : i = s.extlen.toNat
      · rw [if_pos hlast, if_pos hlast]
      · rw [if_neg hlast, if_neg hlast]
        exact h.extension i (Nat.lt_of_le_of_ne (Nat.le_of_lt_succ (Nat.lt_of_lt_of_le hi hnext)) hlast) hmax
  · have hfull : 200 ≤ s.extlen.toNat := Nat.le_of_not_lt hroom
    rw [State.pushExt_dropped c s hfull, State.pushExt_dropped c s' (by rw [h.extlen]; exact hfull)]
    exact h.map (f := fun u => { u with extlen := 201#32 }) (fun _ _ _ => rfl) (Nat.le_refl _) hfull

/-! ### What OPEN and FRAME emit from states that differ in unread contents only -/

theorem SameButUnread.extBytes (h : SameButUnread s s') (hlen : s.extlen.toNat ≤ Config.extMax) : s'.extBytes = s.extBytes := by
  rw [State.extBytes, State.extBytes, h.extlen]
  exact List.map_congr_left fun i hi =>
    h.extension i (List.mem_range.mp hi) (Nat.lt_of_lt_of_le (List.mem_range.mp hi) hlen)

/-- OPEN reads the extension only when its length is good, and then only the pushed bytes (20_memory R55). -/
theorem SameButUnread.extField (h : SameButUnread s s') : s'.extField = s.extField := by
  unfold State.extField State.extOk
  rw [h.extlen]
  by_cases hlen : s.extlen.toNat ≤ Config.extMax
  · rw [h.extBytes hlen]
  · simp [hlen]

theorem SameButUnread.header (h : SameButUnread s s') : header s' = header s := by
  rw [Machine.header, h.extField, h.fields]
  rfl

/-- FRAME reads the pixels of a complete picture, all of which are loaded (20_memory R54). -/
theorem SameButUnread.frameBytes (h : SameButUnread s s') (full : s.wp.toNat = s.pictureSize) : s'.frameBytes = s.frameBytes := by
  have hloaded : ∀ u : State, u.pictureSize = s.pictureSize → (∀ k, k < s.pictureSize → u.pixelAt k = s.pixelAt k) →
      u.frameBytes = Machine.frameBytes u.mode u.ew.toNat u.eh.toNat
        (pictureOf u.ew.toNat ((List.range s.pictureSize).map s.pixelAt)) := fun u hsize hu =>
    frameBytes_of_loaded (by simp [hsize]) fun k hk => by
      have hk : k < s.pictureSize := by simpa using hk
      simp [hu k hk, hk]
  rw [hloaded s' h.pictureSize fun k hk => h.pixels k (full ▸ hk), hloaded s rfl fun _ _ => rfl, h.fields]

/-! ### Every command and every step answers alike -/

/-- Where the first result is a next state, so is the second, and the two differ in unread contents only. -/
def Alike (r r' : Result) : Prop := ∀ t, r = .next t → ∃ t', r' = .next t' ∧ SameButUnread t t'

theorem Alike.next (h : SameButUnread t t') : Alike (.next t) (.next t') := by
  intro u hu
  cases hu
  exact ⟨t', rfl, h⟩

theorem Alike.fault (e e' : Fault) : Alike (.fault e) (.fault e') := fun _ h => nomatch h

theorem Alike.ite {c c' : Prop} [Decidable c] [Decidable c'] {yes no yes' no' : Result} (hc : c' ↔ c)
    (hyes : c → Alike yes yes') (hno : ¬ c → Alike no no') : Alike (if c then yes else no) (if c' then yes' else no') := by
  by_cases h : c
  · rw [if_pos h, if_pos (hc.mpr h)]
    exact hyes h
  · rw [if_neg h, if_neg (mt hc.mp h)]
    exact hno h

theorem Alike.whenIdle (h : SameButUnread s s') (hrun : Alike (run s) (run s')) :
    Alike (whenIdle run s) (whenIdle run s') := by
  cases hs : s.session with
  | idle => rw [whenIdle_idle hs, whenIdle_idle (h.session.trans hs)]; exact hrun
  | opened => rw [whenIdle_opened hs, whenIdle_opened (h.session.trans hs)]; exact .next (h.raise _)
  | failed => rw [whenIdle_failed hs, whenIdle_failed (h.session.trans hs)]; exact .next (h.respond _ _)

theorem Alike.whenOpened (h : SameButUnread s s') (hrun : Alike (run s) (run s')) :
    Alike (whenOpened run s) (whenOpened run s') := by
  cases hs : s.session with
  | idle => rw [whenOpened_idle hs, whenOpened_idle (h.session.trans hs)]; exact .next (h.raise _)
  | opened => rw [whenOpened_opened hs, whenOpened_opened (h.session.trans hs)]; exact hrun
  | failed => rw [whenOpened_failed hs, whenOpened_failed (h.session.trans hs)]; exact .next (h.respond _ _)

theorem Alike.whenNotFailed (h : SameButUnread s s') (hrun : Alike (run s) (run s')) :
    Alike (whenNotFailed run s) (whenNotFailed run s') := by
  by_cases hs : s.session = .failed
  · rw [whenNotFailed_failed hs, whenNotFailed_failed (h.session.trans hs)]
    exact .next (h.respond _ _)
  · rw [whenNotFailed_live hs, whenNotFailed_live (by rw [h.session]; exact hs)]
    exact hrun

/-- The sink answers the same emission alike. -/
theorem Alike.emit (bs : List Byte) (h : SameButUnread s s')
    (hrun : Alike (run (s.sinkTakes bs.length bs)) (run (s'.sinkTakes bs.length bs))) :
    Alike (emit bs run s) (emit bs run s') := by
  rcases Nat.lt_or_eq_of_le (accepted_le s.sinkAnswer bs.length) with hshort | hall
  · rw [emit_short hshort, emit_short (s := s') (by rw [h.sinkAnswer]; exact hshort), h.sinkAnswer]
    exact .next ((h.sinkTakes _ _).raise _)
  · rw [emit_all hall, emit_all (s := s') (by rw [h.sinkAnswer]; exact hall)]
    exact hrun

theorem Alike.openSession (m : Mode) (h : SameButUnread s s') : Alike (openSession m s) (openSession m s') := by
  have hdim : s'.nw = s.nw ∧ s'.nh = s.nh := by rw [h.fields]; exact ⟨rfl, rfl⟩
  obtain ⟨hnw, hnh⟩ := hdim
  simp only [Machine.openSession, hnw, hnh]
  refine .ite Iff.rfl (fun _ => .next (h.raise _)) fun _ => ?_
  refine .ite (by rw [h.headerBad]) (fun _ => .next (h.raise _)) fun _ => ?_
  refine .ite (by rw [h.pbCapacity]) (fun _ => .next (h.raise _)) fun _ => ?_
  have ht := h.startSession m (cropWidth m s.nw) (cropHeight m s.nh)
  rw [ht.header]
  refine .emit _ ht (.next ?_)
  rw [(ht.sinkTakes _ _).warnWord]
  exact (ht.sinkTakes _ _).respond _ _

theorem Alike.execOpenBadmode (h : SameButUnread s s') (m : Byte) : Alike (execOpenBadmode m s) (execOpenBadmode m s') := by
  refine .whenIdle h ?_
  exact .next (h.raise _)

theorem Alike.execPix (h : SameButUnread s s') (hs : Inv s) (hs' : Inv s') (p : Pixel) :
    Alike (execPix p s) (execPix p s') := by
  refine .whenOpened h ?_
  refine .ite (by rw [h.wp, h.pictureSize]) (fun _ => .next (h.raise _)) fun _ => ?_
  exact .ite (by rw [h.wp, h.pbCapacity]) (fun _ => .fault _ _) fun _ => .next ((h.pushPixel hs hs' p).respond _ _)

theorem Alike.execFrame (h : SameButUnread s s') : Alike (execFrame s) (execFrame s') := by
  refine .whenOpened h ?_
  refine .ite (by rw [h.wp, h.pictureSize]) (fun _ => .next (h.raise _)) fun full => ?_
  refine .ite (by rw [h.pbCapacity, h.pictureSize]) (fun _ => .fault _ _) fun _ => ?_
  rw [h.frameBytes (not_not.mp full)]
  exact .emit _ h (.next ((h.sinkTakes _ _).finishFrame.respond _ _))

theorem Alike.execClose (h : SameButUnread s s') : Alike (execClose s) (execClose s') := by
  refine .whenOpened h ?_
  refine .ite (by rw [h.wp]) (fun _ => .next (h.raise _)) fun _ => ?_
  exact .next (h.closed.respond _ _)

theorem Alike.execAbort (h : SameButUnread s s') (c : Byte) : Alike (execAbort c s) (execAbort c s') := by
  refine .whenNotFailed h ?_
  cases upstreamError c with
  | some e => exact .next (h.raise e)
  | none => exact .next (h.raise _)

theorem SameButUnread.rejectMalformed (h : SameButUnread s s') : SameButUnread s.rejectMalformed s'.rejectMalformed := by
  by_cases hs : s.session = .failed
  · rw [rejectMalformed_failed hs, rejectMalformed_failed (h.session.trans hs)]
    exact h.respond _ _
  · rw [rejectMalformed_live hs, rejectMalformed_live (by rw [h.session]; exact hs)]
    exact h.raise _

theorem SameButUnread.rejectIllegal (h : SameButUnread s s') (op : Byte) :
    SameButUnread (s.rejectIllegal op) (s'.rejectIllegal op) := by
  by_cases hs : s.session = .failed
  · rw [rejectIllegal_failed op hs, rejectIllegal_failed op (h.session.trans hs)]
    split
    · exact h.respond _ _
    · exact h.respond _ _
  · rw [rejectIllegal_live op hs, rejectIllegal_live op (by rw [h.session]; exact hs)]
    exact h.raise _

theorem Alike.execRd (h : SameButUnread s s') (k : Byte) : Alike (execRd k s) (execRd k s') := by
  unfold Machine.execRd
  cases ControlReg.ofIndex k with
  | some r => dsimp only; rw [h.readReg r]; exact .next (h.respond _ _)
  | none => exact .next h.rejectMalformed

theorem Alike.execConv (h : SameButUnread s s') (p : Pixel) : Alike (execConv p s) (execConv p s') := by
  refine .whenNotFailed h ?_
  exact .next (h.respond _ _)

/-- A configuration command makes its update in IDLE and responds. -/
theorem Alike.configured (f : State → State) (h : SameButUnread s s') (hf : SameButUnread (f s) (f s')) :
    Alike (Machine.whenIdle (fun u => .next (State.done 0#32 (f u))) s)
      (Machine.whenIdle (fun u => .next (State.done 0#32 (f u))) s') :=
  .whenIdle h (.next (hf.respond _ _))

/-- A configuration command that writes a register other than the counters. -/
theorem Alike.register (f : State → State) (h : SameButUnread s s') (hf : BlindToMemories f)
    (hwp : (f s).wp = s.wp) (hlen : (f s).extlen = s.extlen) :
    Alike (Machine.whenIdle (fun u => .next (State.done 0#32 (f u))) s)
      (Machine.whenIdle (fun u => .next (State.done 0#32 (f u))) s') :=
  .configured f h (h.map_counters hf hwp hlen)

/-- No command's outcome depends on unread contents. -/
theorem Alike.exec (h : SameButUnread s s') (hs : Inv s) (hs' : Inv s') (i : Instr) : Alike (exec i s) (exec i s') := by
  cases i with
  | setnw v => exact .register (fun u => { u with nw := v }) h (fun _ _ _ => rfl) rfl rfl
  | setnh v => exact .register (fun u => { u with nh := v }) h (fun _ _ _ => rfl) rfl rfl
  | setfrn v => exact .register (fun u => { u with frn := v }) h (fun _ _ _ => rfl) rfl rfl
  | setfrd v => exact .register (fun u => { u with frd := v }) h (fun _ _ _ => rfl) rfl rfl
  | setparn v => exact .register (fun u => { u with parn := v }) h (fun _ _ _ => rfl) rfl rfl
  | setpard v => exact .register (fun u => { u with pard := v }) h (fun _ _ _ => rfl) rfl rfl
  | setil c => exact .register (fun u => { u with il := c }) h (fun _ _ _ => rfl) rfl rfl
  | extclr => exact .configured (fun u => { u with extlen := 0#32 }) h h.clearExt
  | extb c => exact .configured (State.pushExt c) h (h.pushExt hs hs' c)
  | openC444 => exact .whenIdle h (.openSession .c444 h)
  | openC422 => exact .whenIdle h (.openSession .c422 h)
  | openC420 => exact .whenIdle h (.openSession .c420 h)
  | openC411 => exact .whenIdle h (.openSession .c411 h)
  | openC410 => exact .whenIdle h (.openSession .c410 h)
  | openBadmode m => exact .execOpenBadmode h m
  | pix p => exact .execPix h hs hs' p
  | frame => exact .execFrame h
  | close => exact .execClose h
  | abort c => exact .execAbort h c
  | rd k => exact .execRd h k
  | conv p => exact .execConv h p
  | reset => exact .next (h.toReset.respond _ _)

theorem Alike.step (h : SameButUnread s s') (hs : Inv s) (hs' : Inv s') : Alike (step s) (step s') := by
  rcases hp : s.port with _ | ⟨_ | _, rest⟩
  · rw [step_waiting hp, step_waiting (h.port.trans hp)]
    exact .next h
  · next w =>
    cases hd : decode w with
    | ok i =>
      rw [step_command hp hd, step_command (h.port.trans hp) hd]
      exact .exec (h.withPort rest) (hs.withPort rest) (hs'.withPort rest) i
    | error e =>
      rw [step_illegal hp hd, step_illegal (h.port.trans hp) hd]
      exact .next ((h.withPort rest).rejectIllegal _)
  · rw [step_hardwareReset hp, step_hardwareReset (h.port.trans hp)]
    exact .next (h.withPort rest).toReset

/-- Settles O56: every step answers alike (`Alike.step`), and the two next states share all but the memories. -/
theorem unreadContentsAreUnobservable : Obligations.UnreadContentsAreUnobservable := by
  unfold Obligations.UnreadContentsAreUnobservable
  intro s s' t hs hs' h hstep
  obtain ⟨t', hstep', ht⟩ := Alike.step h hs hs' t hstep
  exact ⟨t', hstep', ht, by rw [ht.fields], by rw [ht.fields]⟩

end Sys2Proof.Machine

namespace Sys2Proof

/-! ### A word that decodes gives a well-formed command (30_encoding R77, R78) -/

theorem wellFormed_openWithCode (m : Byte) : (openWithCode m).wellFormed = true := by
  by_cases h : 5 ≤ m.toNat
  · rw [openWithCode_badmode h]
    exact decide_eq_true h
  · obtain ⟨k, hk, rfl⟩ : ∃ k < 5, m = BitVec.ofNat 8 k := ⟨m.toNat, Nat.lt_of_not_le h, by simp⟩
    interval_cases k <;> rfl

/-- What an opcode's row makes of an operand is a well-formed command. -/
theorem wellFormed_operation {op : Byte} {form : Form} {make : Word → Instr} (hop : operation op = some (form, make)) (arg : Word) :
    (make arg).wellFormed = true := by
  unfold operation at hop
  split at hop <;> cases hop
  -- OPEN: the code decides the row
  case h_10 => exact wellFormed_openWithCode _
  all_goals rfl

theorem wellFormed_of_decode {w : PortWord} {i : Instr} (h : decode w = .ok i) : i.wellFormed = true := by
  unfold decode at h
  split at h
  · cases h
  · next form make hop =>
    split at h
    · cases h
      exact wellFormed_operation hop _
    · cases h

/-- Settles O3: the row of the opcode makes a well-formed command (`wellFormed_of_decode`), encoded as the word (`encode_of_decode`). -/
theorem decodeThenEncode : Obligations.DecodeThenEncode := by
  unfold Obligations.DecodeThenEncode
  exact fun w i h => ⟨wellFormed_of_decode h, encode_of_decode h⟩

/-! ### Words that decode to no command (30_encoding R75, R76) -/

theorem operation_reserved {op : Byte}
    (h : op.toNat ≤ 0x0F ∨ (0x19 ≤ op.toNat ∧ op.toNat ≤ 0x1F) ∨ (0x25 ≤ op.toNat ∧ op.toNat ≤ 0x2F)
      ∨ (0x32 ≤ op.toNat ∧ op.toNat ≤ 0x3E) ∨ 0x40 ≤ op.toNat) : operation op = none := by
  unfold operation
  split
  iterate 17 exact absurd h (by decide)
  rfl

theorem decode_operandBits {op : Byte} {arg : Word} {form : Form} {make : Word → Instr} (hop : operation op = some (form, make))
    (h : form.operandBound ≤ arg.toNat) : decode (op ++ arg) = .error (.reservedOperandBits op arg) := by
  rw [decode_word hop, if_neg (Nat.not_lt.mpr h)]

theorem mem_map_ofNat_of_toNat_mem {op : Byte} {ops : List Nat} (h : op.toNat ∈ ops) : op ∈ ops.map (BitVec.ofNat 8) :=
  List.mem_map.mpr ⟨op.toNat, h, by simp⟩

/-- A set reserved bit puts the operand at or beyond the bound of the opcode's form. -/
theorem reservedOperandBits_row {op : Byte} {arg : Word}
    (h : (op.toNat ∈ [0x16, 0x18, 0x20, 0x24, 0x30] ∧ 0x100 ≤ arg.toNat) ∨ (op.toNat ∈ [0x17, 0x22, 0x23, 0x3F] ∧ arg ≠ 0#32)
      ∨ (op.toNat ∈ [0x21, 0x31] ∧ 0x1000000 ≤ arg.toNat)) :
    ∃ form make, operation op = some (form, make) ∧ form.operandBound ≤ arg.toNat := by
  rcases h with ⟨hop, harg⟩ | ⟨hop, harg⟩ | ⟨hop, harg⟩
  · have hops := mem_map_ofNat_of_toNat_mem hop
    fin_cases hops <;> exact ⟨_, _, rfl, harg⟩
  · have hops := mem_map_ofNat_of_toNat_mem hop
    have harg : 1 ≤ arg.toNat := Nat.one_le_iff_ne_zero.mpr fun h => harg (BitVec.eq_of_toNat_eq h)
    fin_cases hops <;> exact ⟨_, _, rfl, harg⟩
  · have hops := mem_map_ofNat_of_toNat_mem hop
    fin_cases hops <;> exact ⟨_, _, rfl, harg⟩

end Sys2Proof

namespace Sys2Proof.Machine

variable {s t u : State} {i : Instr} {rest : List PortEvent} {run : State → Result}

theorem illegalOutsideFailed_of_decode {w : PortWord} {e : DecodeError} (hd : decode w = .error e) : IllegalOutsideFailed w := by
  intro s rest hp hlive
  exact (step_illegal hp hd).trans (congrArg Host.Outcome.next (rejectIllegal_live (s := s.withPort rest) (opOf w) hlive))

theorem step_illegal_failed {op : Byte} {arg : Word} {e : DecodeError} (hd : decode (op ++ arg) = .error e)
    (hp : s.port = .command (op ++ arg) :: rest) (hf : s.session = .failed) :
    step s = .next ((s.withPort rest).answered
      (if op = 0x30#8 ∨ op = 0x3F#8 then 0x0800000000#40 else 0x0C00000000#40)) := by
  rw [step_illegal hp hd, opOf_word]
  refine (congrArg Host.Outcome.next (rejectIllegal_failed (s := s.withPort rest) op hf)).trans ?_
  split <;> rfl

/-- Settles O5: the opcode has no row (`operation_reserved`), so the word is illegal and names neither RD nor RESET. -/
theorem reservedOpcodesAreIllegal : Obligations.ReservedOpcodesAreIllegal := by
  unfold Obligations.ReservedOpcodesAreIllegal
  intro op arg hrange
  have hop := operation_reserved hrange
  have hother : ¬ (op = 0x30#8 ∨ op = 0x3F#8) := by
    rintro (rfl | rfl) <;> cases hop
  have hd := decode_reserved hop arg
  refine ⟨illegalOutsideFailed_of_decode hd, fun s rest hp hf => ?_⟩
  rw [step_illegal_failed hd hp hf, if_neg hother]

/-- Settles O6: the operand is beyond the form of the opcode's row (`reservedOperandBits_row`), so the word is illegal. -/
theorem reservedOperandBitsAreIllegal : Obligations.ReservedOperandBitsAreIllegal := by
  unfold Obligations.ReservedOperandBitsAreIllegal
  intro op arg hbits
  obtain ⟨form, make, hop, hbound⟩ := reservedOperandBits_row hbits
  have hd := decode_operandBits hop hbound
  exact ⟨illegalOutsideFailed_of_decode hd, fun s rest hp hf => step_illegal_failed hd hp hf⟩

/-! ### Every command is performed where the invariant holds (30_encoding R78) -/

/-- The command answers a next state: no stop of the model is reached. -/
def Performed (r : Result) : Prop := ∃ t, r = .next t

theorem Performed.next (t : State) : Performed (.next t) := ⟨t, rfl⟩

theorem Performed.ite {c : Prop} [Decidable c] {yes no : Result} (hyes : c → Performed yes) (hno : ¬ c → Performed no) :
    Performed (if c then yes else no) := by
  by_cases h : c
  · rw [if_pos h]; exact hyes h
  · rw [if_neg h]; exact hno h

theorem Performed.whenIdle (h : s.session = .idle → Performed (run s)) : Performed (whenIdle run s) := by
  cases hs : s.session with
  | idle => rw [whenIdle_idle hs]; exact h hs
  | opened => rw [whenIdle_opened hs]; exact .next _
  | failed => rw [whenIdle_failed hs]; exact .next _

theorem Performed.whenOpened (h : s.session = .opened → Performed (run s)) : Performed (whenOpened run s) := by
  cases hs : s.session with
  | idle => rw [whenOpened_idle hs]; exact .next _
  | opened => rw [whenOpened_opened hs]; exact h hs
  | failed => rw [whenOpened_failed hs]; exact .next _

theorem Performed.whenNotFailed (h : s.session ≠ .failed → Performed (run s)) : Performed (whenNotFailed run s) := by
  by_cases hs : s.session = .failed
  · rw [whenNotFailed_failed hs]; exact .next _
  · rw [whenNotFailed_live hs]; exact h hs

/-- An emission is performed, whatever the sink accepts, if the rest of the command is (20_memory R58). -/
theorem Performed.emit (bs : List Byte) (h : Performed (run (s.sinkTakes bs.length bs))) : Performed (emit bs run s) := by
  rcases Nat.lt_or_eq_of_le (accepted_le s.sinkAnswer bs.length) with hshort | hall
  · rw [emit_short hshort]; exact .next _
  · rw [emit_all hall]; exact h

theorem Performed.openSession (m : Mode) (s : State) : Performed (openSession m s) :=
  .ite (fun _ => .next _) fun _ => .ite (fun _ => .next _) fun _ => .ite (fun _ => .next _) fun _ => .emit _ (.next _)

/-- The index PIX writes is in PB (10_state R32, R33). -/
theorem Performed.execPix (h : Inv s) (p : Pixel) : Performed (execPix p s) := by
  refine .whenOpened fun _ => .ite (fun _ => .next _) fun room => .ite (fun beyond => ?_) fun _ => .next _
  have hroom : s.wp.toNat < s.pictureSize := Nat.lt_of_le_of_ne h.loaded room
  exact absurd (Nat.lt_of_lt_of_le hroom h.fits) (Nat.not_lt.mpr beyond)

/-- The picture FRAME reads is in PB (10_state R32). -/
theorem Performed.execFrame (h : Inv s) : Performed (execFrame s) :=
  .whenOpened fun _ => .ite (fun _ => .next _) fun _ => .ite (fun beyond => absurd h.fits (Nat.not_le.mpr beyond)) fun _ =>
    .emit _ (.next _)

theorem Performed.execClose (s : State) : Performed (execClose s) :=
  .whenOpened fun _ => .ite (fun _ => .next _) fun _ => .next _

theorem Performed.execAbort (c : Byte) (s : State) : Performed (execAbort c s) := by
  refine .whenNotFailed fun _ => ?_
  cases upstreamError c <;> exact .next _

theorem Performed.execRd (k : Byte) (s : State) : Performed (execRd k s) := by
  unfold Machine.execRd
  cases ControlReg.ofIndex k <;> exact .next _

theorem Performed.execConv (p : Pixel) (s : State) : Performed (execConv p s) := .whenNotFailed fun _ => .next _

theorem Performed.exec (h : Inv s) (i : Instr) : Performed (exec i s) := by
  cases i with
  | pix p => exact .execPix h p
  | frame => exact .execFrame h
  | close => exact .execClose s
  | abort c => exact .execAbort c s
  | rd k => exact .execRd k s
  | conv p => exact .execConv p s
  | reset => exact .next _
  | openC444 | openC422 | openC420 | openC411 | openC410 => exact .whenIdle fun _ => .openSession _ s
  | setnw | setnh | setfrn | setfrd | setparn | setpard | setil | extclr | extb | openBadmode =>
    unfold Machine.exec
    exact .whenIdle fun _ => ⟨_, rfl⟩

/-- Settles O49: of the events only a command could stop, and where the invariant holds every command is performed
(`Performed.exec`). -/
theorem noStopFromTheInvariant : Obligations.NoStopFromTheInvariant := by
  unfold Obligations.NoStopFromTheInvariant
  intro s h
  rcases hp : s.port with _ | ⟨w | _, rest⟩
  · exact ⟨s, step_waiting hp⟩
  · cases hd : decode w with
    | ok i =>
      rw [step_command hp hd]
      exact Performed.exec (h.withPort rest) i
    | error e => exact ⟨_, step_illegal hp hd⟩
  · exact ⟨_, step_hardwareReset hp⟩

/-! ### The response of a command word (30_encoding R72, 60_exceptions R210, R212) -/

/-- From `s` to `t` exactly one response was given, with data 0 on error: the code of the fault that was raised, 0 where none was, and
0, 8 or 12 in FAILED. -/
def RespondedOnce (s t : State) : Prop :=
  ∃ (err : Byte) (data : Word), t.responses = s.responses ++ [err ++ data] ∧ (err ≠ 0#8 → data = 0#32)
    ∧ (s.session ≠ .failed → t.session = .failed → ∃ c : ErrorCode, t.err = some c ∧ err = c.code)
    ∧ (s.session ≠ .failed → t.session ≠ .failed → err = 0#8)
    ∧ (s.session = .failed → err = 0#8 ∨ err = 8#8 ∨ err = 12#8)

/-- A command performed, in the session or out of it. -/
theorem RespondedOnce.done (hresp : u.responses = s.responses) (hlive : s.session ≠ .failed → u.session ≠ .failed) (d : Word) :
    RespondedOnce s (u.done d) :=
  ⟨0#8, d, by simp [hresp], fun h => absurd rfl h, fun hs ht => absurd ht (hlive hs), fun _ _ => rfl, fun _ => .inl rfl⟩

/-- A fault taken. -/
theorem RespondedOnce.raise (hresp : u.responses = s.responses) (hs : s.session ≠ .failed) (c : ErrorCode) :
    RespondedOnce s (u.raise c) :=
  ⟨c.code, 0#32, by simp [hresp], fun _ => rfl, fun _ _ => ⟨c, rfl, rfl⟩, fun _ ht => absurd rfl ht, fun hf => absurd hf hs⟩

/-- A command refused or malformed in FAILED. -/
theorem RespondedOnce.refused (hf : s.session = .failed) {e : Byte} (he : e = 8#8 ∨ e = 12#8) : RespondedOnce s (s.respond e 0#32) :=
  ⟨e, 0#32, rfl, fun _ => rfl, fun hs => absurd hf hs, fun hs => absurd hf hs, fun _ => .inr he⟩

theorem Took.respondedOnce (h : Took s i t) : RespondedOnce s t := by
  cases h with
  | refused _ hf => exact .refused hf (.inr rfl)
  | badIndex _ hf => exact .refused hf (.inl rfl)
  | faulted _ c hs => exact .raise rfl hs c
  | openShort m u hi _ hu => subst hu; exact .raise (by simp) (by simp [hi]) _
  | frameShort ho => exact .raise rfl (by simp [ho]) _
  | opened m u _ _ hu => subst hu; exact .done (by simp) (fun _ => by simp) _
  | close => exact .done (by simp) (fun _ => by simp) _
  | reset => exact .done (by simp) (fun _ => by simp) _
  | extb => exact .done (by simp) (fun hs => by simpa using hs) _
  | _ => exact .done rfl id _

theorem respondedOnce_rejectIllegal (op : Byte) (s : State) : RespondedOnce s (s.rejectIllegal op) := by
  by_cases hf : s.session = .failed
  · rw [rejectIllegal_failed op hf]
    split
    · exact .refused hf (.inl rfl)
    · exact .refused hf (.inr rfl)
  · rw [rejectIllegal_live op hf]
    exact .raise rfl hf _

/-- Settles O15: a command word is performed (`Took.respondedOnce`) or illegal (`respondedOnce_rejectIllegal`). -/
theorem oneResponsePerCommand : Obligations.OneResponsePerCommand := by
  unfold Obligations.OneResponsePerCommand
  intro s t w rest hp hstep
  -- taking the word from the port changes neither the session nor the responses
  change RespondedOnce (s.withPort rest) t
  cases hd : decode w with
  | ok i =>
    rw [step_command hp hd] at hstep
    exact (exec_took hstep).respondedOnce
  | error e =>
    cases (step_illegal hp hd).symm.trans hstep
    exact respondedOnce_rejectIllegal _ _

/-! ### Assembler lines and pseudo-commands (30_encoding R79, R80) -/

/-- Settles O59: each expansion is the one R80 lists. -/
theorem pseudoCommandExpansions : Obligations.PseudoCommandExpansions := by
  unfold Obligations.PseudoCommandExpansions
  exact ⟨fun _ _ => rfl, fun _ _ => rfl, fun _ _ => rfl, fun _ => rfl, fun _ => rfl⟩

/-- Settles O60: the lines are assembled by evaluation. -/
theorem assemblerExamples : Obligations.AssemblerExamples := by
  unfold Obligations.AssemblerExamples
  exact ⟨rfl, rfl⟩

end Sys2Proof.Machine

namespace Sys2Proof.Machine

variable {raw : Pixel → Int} {low high sum : Int} {lowPixel highPixel : Pixel} {ps : List Pixel} {k : Nat}

/-! ### The raw values of the colour converter and their bounds (41_colour_converter R100, R101) -/

theorem pixel_eq_iff (p q : Pixel) : p = q ↔ p.r.toNat = q.r.toNat ∧ p.g.toNat = q.g.toNat ∧ p.b.toNat = q.b.toNat := by
  cases p
  cases q
  simp only [Pixel.mk.injEq, BitVec.toNat_inj]

/-- A raw value lies between two bounds, each reached at one pixel only. -/
structure Spans (raw : Pixel → Int) (low high : Int) (lowPixel highPixel : Pixel) : Prop where
  low_le (p : Pixel) : low ≤ raw p
  le_high (p : Pixel) : raw p ≤ high
  eq_low_iff (p : Pixel) : raw p = low ↔ p = lowPixel
  eq_high_iff (p : Pixel) : raw p = high ↔ p = highPixel

/-- It is enough to look at the three channels as numbers below 256. -/
theorem spans_of_channels
    (h : ∀ p : Pixel, p.r.toNat < 256 → p.g.toNat < 256 → p.b.toNat < 256 →
      low ≤ raw p ∧ raw p ≤ high
        ∧ (raw p = low ↔ p.r.toNat = lowPixel.r.toNat ∧ p.g.toNat = lowPixel.g.toNat ∧ p.b.toNat = lowPixel.b.toNat)
        ∧ (raw p = high ↔ p.r.toNat = highPixel.r.toNat ∧ p.g.toNat = highPixel.g.toNat ∧ p.b.toNat = highPixel.b.toNat)) :
    Spans raw low high lowPixel highPixel := by
  constructor <;> intro p <;> obtain ⟨hlow, hhigh, heqLow, heqHigh⟩ := h p p.r.isLt p.g.isLt p.b.isLt
  · exact hlow
  · exact hhigh
  · rw [heqLow, pixel_eq_iff]
  · rw [heqHigh, pixel_eq_iff]

theorem rawLuma_spans : Spans rawLuma 0 255000 ⟨0#8, 0#8, 0#8⟩ ⟨255#8, 255#8, 255#8⟩ :=
  spans_of_channels fun p hr hg hb => by simp only [rawLuma, BitVec.toNat_ofNat]; omega

theorem rawBlue_spans : Spans rawBlue 500 255500 ⟨255#8, 255#8, 0#8⟩ ⟨0#8, 0#8, 255#8⟩ :=
  spans_of_channels fun p hr hg hb => by simp only [rawBlue, BitVec.toNat_ofNat]; omega

theorem rawRed_spans : Spans rawRed 500 255500 ⟨0#8, 255#8, 255#8⟩ ⟨255#8, 0#8, 0#8⟩ :=
  spans_of_channels fun p hr hg hb => by simp only [rawRed, BitVec.toNat_ofNat]; omega

theorem rawLuma_grey (v : Byte) : rawLuma ⟨v, v, v⟩ = 1000 * v.toNat := by
  simp only [rawLuma]; omega

theorem rawBlue_grey (v : Byte) : rawBlue ⟨v, v, v⟩ = 128000 := by
  simp only [rawBlue]; omega

theorem rawRed_grey (v : Byte) : rawRed ⟨v, v, v⟩ = 128000 := by
  simp only [rawRed]; omega

/-- Settles O32, by the bounds of each raw value. -/
theorem rawValueBounds : Obligations.RawValueBounds := by
  unfold Obligations.RawValueBounds
  exact fun p =>
    ⟨⟨rawLuma_spans.low_le p, rawLuma_spans.le_high p, rawBlue_spans.low_le p, rawBlue_spans.le_high p,
        rawRed_spans.low_le p, rawRed_spans.le_high p⟩,
      rawLuma_spans.eq_low_iff p, rawLuma_spans.eq_high_iff p, rawBlue_spans.eq_low_iff p, rawBlue_spans.eq_high_iff p,
      rawRed_spans.eq_low_iff p, rawRed_spans.eq_high_iff p,
      fun v => ⟨rawLuma_grey v, rawBlue_grey v, rawRed_grey v⟩⟩

/-! ### One rounding, half up, capped at 255 (41_colour_converter R102) -/

theorem rounded_natCast_toNat (sum k : Nat) : (rounded sum k).toNat = min 255 ((sum + 500 * k) / (1000 * k)) := by
  rw [rounded_toNat]
  norm_cast

/-- Half of the divisor, added before the division, carries into the quotient where the fractional part is at least one half. -/
theorem add_half_div (sum : Nat) (hk : 0 < k) :
    (sum + 500 * k) / (1000 * k) = sum / (1000 * k) + if 500 * k ≤ sum % (1000 * k) then 1 else 0 := by
  have hhalf : 500 * k < 1000 * k := by omega
  rw [Nat.add_div (by omega), Nat.div_eq_of_lt hhalf, Nat.mod_eq_of_lt hhalf, Nat.add_zero]
  exact congrArg _ (if_congr (by omega) rfl rfl)

/-- Settles O33: adding half the divisor rounds half up (`add_half_div`). -/
theorem roundHalfUpWithCap : Obligations.RoundHalfUpWithCap := by
  unfold Obligations.RoundHalfUpWithCap
  intro sum k hk
  rw [rounded_natCast_toNat, add_half_div sum (by omega)]
  refine ⟨Nat.min_le_left _ _, fun hbelow => ?_, fun htie => ?_⟩
  · rw [if_neg (Nat.not_le.mpr hbelow), Nat.add_zero]
  · rw [if_pos htie]

/-- The quotient exceeds 255 from a mean of 255500 thousandths on. -/
theorem lt_roundedQuotient_iff (hk : 0 < k) : 255 < (sum + 500 * k) / (1000 * k) ↔ k * 255500 ≤ sum := by
  rw [Int.lt_iff_add_one_le, Int.le_ediv_iff_mul_le (by omega)]
  omega

/-- The quotient is at least 1 from a mean of 500 thousandths on. -/
theorem one_le_roundedQuotient (hk : 0 < k) (h : k * 500 ≤ sum) : 1 ≤ (sum + 500 * k) / (1000 * k) := by
  rw [Int.le_ediv_iff_mul_le (by omega)]
  omega

/-- A sum of `k` equal values rounds to what the one value rounds to. -/
theorem rounded_natCast_mul (hk : 0 < k) (x : Int) : rounded (k * x) k = rounded x 1 := by
  have hquotient : (k * x + 500 * k) / (1000 * k) = (x + 500 * (1 : Nat)) / (1000 * (1 : Nat)) := by
    rw [show k * x + 500 * k = k * (x + 500) by ring, mul_comm 1000, Int.mul_ediv_mul_of_pos _ _ (by omega)]
    rfl
  rw [rounded, roundedNat, hquotient]
  rfl

/-! ### Sums of raw values (41_colour_converter R106, R107) -/

theorem rawSum_eq_sum_map (raw : Pixel → Int) (ps : List Pixel) : rawSum raw ps = (ps.map raw).sum := by
  induction ps with
  | nil => rfl
  | cons p ps ih => simp [rawSum, ih]

theorem rawSum_perm {qs : List Pixel} (h : ps.Perm qs) (raw : Pixel → Int) : rawSum raw ps = rawSum raw qs := by
  rw [rawSum_eq_sum_map, rawSum_eq_sum_map, (h.map raw).sum_eq]

theorem rawSum_const {c : Int} (h : ∀ p ∈ ps, raw p = c) : rawSum raw ps = ps.length * c := by
  rw [rawSum_eq_sum_map, List.map_congr_left h]
  simp

theorem rounded_rawSum_const (hlen : 0 < ps.length) {c : Int} (h : ∀ p ∈ ps, raw p = c) :
    rounded (rawSum raw ps) ps.length = rounded c 1 := by
  rw [rawSum_const h, rounded_natCast_mul hlen]

theorem Spans.length_mul_low_le (h : Spans raw low high lowPixel highPixel) (ps : List Pixel) :
    ps.length * low ≤ rawSum raw ps := by
  induction ps with
  | nil => simp [rawSum]
  | cons p ps ih =>
    have hp := h.low_le p
    simp only [rawSum, List.length_cons, Nat.cast_succ, add_mul]
    omega

theorem Spans.rawSum_le (h : Spans raw low high lowPixel highPixel) (ps : List Pixel) :
    rawSum raw ps ≤ ps.length * high := by
  induction ps with
  | nil => simp [rawSum]
  | cons p ps ih =>
    have hp := h.le_high p
    simp only [rawSum, List.length_cons, Nat.cast_succ, add_mul]
    omega

/-- A sum reaches the upper bound only when every pixel does. -/
theorem Spans.le_rawSum_iff (h : Spans raw low high lowPixel highPixel) (ps : List Pixel) :
    ps.length * high ≤ rawSum raw ps ↔ ∀ p ∈ ps, p = highPixel := by
  induction ps with
  | nil => simp [rawSum]
  | cons p ps ih =>
    have hp := h.le_high p
    have hps := h.rawSum_le ps
    rw [List.forall_mem_cons, ← ih, ← h.eq_high_iff]
    simp only [rawSum, List.length_cons, Nat.cast_succ, add_mul]
    omega

/-! ### The cap acts for one chroma value only (41_colour_converter R112) -/

theorem Spans.capped_iff (h : Spans raw low 255500 lowPixel highPixel) (hlen : 0 < ps.length) :
    255 < (rawSum raw ps + 500 * ps.length) / (1000 * ps.length) ↔ ∀ p ∈ ps, p = highPixel := by
  rw [lt_roundedQuotient_iff hlen, h.le_rawSum_iff]

/-- A chroma sample as an integer: the quotient is not negative, so only the cap stands between them. -/
theorem Spans.rounded_toInt (h : Spans raw 500 high lowPixel highPixel) (hlen : 0 < ps.length) :
    ((rounded (rawSum raw ps) ps.length).toNat : Int) = min 255 ((rawSum raw ps + 500 * ps.length) / (1000 * ps.length)) := by
  have hquotient := one_le_roundedQuotient hlen (h.length_mul_low_le ps)
  rw [rounded_toNat]
  omega

theorem Spans.one_le_rounded (h : Spans raw 500 high lowPixel highPixel) (hlen : 0 < ps.length) :
    1 ≤ (rounded (rawSum raw ps) ps.length).toNat := by
  have hquotient := one_le_roundedQuotient hlen (h.length_mul_low_le ps)
  have hsample := h.rounded_toInt hlen
  omega

/-- Settles O34: a mean reaches the cap only where every pixel has the upper bound (`Spans.capped_iff`). -/
theorem capActsForOnePixelValue : Obligations.CapActsForOnePixelValue := by
  unfold Obligations.CapActsForOnePixelValue
  refine ⟨fun p => ?_, fun ps hlen => ?_⟩
  · have hluma := rawLuma_spans.le_high p
    omega
  · have hpos : 0 < ps.length := by omega
    exact ⟨rawBlue_spans.capped_iff hpos, rawRed_spans.capped_iff hpos,
      rawBlue_spans.one_le_rounded hpos, rawRed_spans.one_le_rounded hpos⟩

/-! ### Averages (41_colour_converter R106 to R108) -/

/-- Greys of any brightness, where a grey has the raw value `c`, average to what `c` rounds to. -/
theorem rounded_rawSum_grey {c : Int} (hraw : ∀ v, raw ⟨v, v, v⟩ = c) (hlen : 0 < ps.length) (h : ∀ p ∈ ps, p.r = p.g ∧ p.g = p.b) :
    rounded (rawSum raw ps) ps.length = rounded c 1 := by
  refine rounded_rawSum_const hlen ?_
  rintro ⟨r, g, b⟩ hp
  obtain ⟨rfl, rfl⟩ : r = g ∧ g = b := h _ hp
  exact hraw r

theorem chromaAvg_grey (hlen : 0 < ps.length) (h : ∀ p ∈ ps, p.r = p.g ∧ p.g = p.b) :
    chromaBlueAvg ps = 128#8 ∧ chromaRedAvg ps = 128#8 :=
  ⟨rounded_rawSum_grey rawBlue_grey hlen h, rounded_rawSum_grey rawRed_grey hlen h⟩

theorem chromaAvg_perm {qs : List Pixel} (h : ps.Perm qs) :
    chromaBlueAvg ps = chromaBlueAvg qs ∧ chromaRedAvg ps = chromaRedAvg qs := by
  simp only [chromaBlueAvg, chromaRedAvg, rawSum_perm h, h.length_eq, and_self]

theorem rounded_rawSum_replicate (hk : 0 < k) (raw : Pixel → Int) (p : Pixel) :
    rounded (rawSum raw (List.replicate k p)) (List.replicate k p).length = rounded (raw p) 1 :=
  rounded_rawSum_const (by simpa using hk) fun _ hq => congrArg raw (List.eq_of_mem_replicate hq)

/-- Settles O35: the sums of raw values are integers, so that order and grouping do not matter, and one rounding follows. -/
theorem averageThenRoundOnce : Obligations.AverageThenRoundOnce := by
  unfold Obligations.AverageThenRoundOnce
  refine ⟨fun ps k nb nr hlen hk hnb hnr => ?_, fun ps qs => chromaAvg_perm, fun p k hk => ?_, by decide⟩
  · subst hlen
    obtain rfl : nb = rawSum rawBlue ps := hnb.trans (rawSum_eq_sum_map rawBlue ps).symm
    obtain rfl : nr = rawSum rawRed ps := hnr.trans (rawSum_eq_sum_map rawRed ps).symm
    have hpos : 0 < ps.length := by omega
    exact ⟨rawBlue_spans.rounded_toInt hpos, rawRed_spans.rounded_toInt hpos, rawBlue_spans.capped_iff hpos,
      rawRed_spans.capped_iff hpos, chromaAvg_grey hpos⟩
  · have hpos : 0 < k := by omega
    exact ⟨rounded_rawSum_replicate hpos rawBlue p, rounded_rawSum_replicate hpos rawRed p⟩

end Sys2Proof.Machine

namespace Sys2Proof.Machine

variable {m : Mode} {w h n k i j row : Nat}

/-! ### Runs of `k` along one axis of a picture (42_subsampler R120, R133) -/

theorem Mode.hx_pos (m : Mode) : 0 < m.hx := by cases m <;> decide

theorem Mode.vy_pos (m : Mode) : 0 < m.vy := by cases m <;> decide

theorem lt_sub_mod_add (hk : 0 < k) (n : Nat) : n < n - n % k + k := by
  have hrest := Nat.mod_lt n hk
  omega

/-- A run that starts below `n / k` ends below `n`. -/
theorem mul_add_lt_of_lt_div {a : Nat} (hi : i < n / k) (ha : a < k) : k * i + a < n :=
  calc k * i + a < k * (i + 1) := by rw [Nat.mul_succ]; omega
    _ ≤ k * (n / k) := Nat.mul_le_mul_left k hi
    _ ≤ n := Nat.mul_div_le n k

/-- The run that a place is in is its quotient by `k`, and no other. -/
theorem exists_run_iff (hk : 0 < k) : (∃ a, a < k ∧ row = k * i + a) ↔ i = row / k := by
  constructor
  · rintro ⟨a, ha, rfl⟩
    rw [Nat.mul_add_div hk, Nat.div_eq_of_lt ha, Nat.add_zero]
  · rintro rfl
    exact ⟨row % k, Nat.mod_lt row hk, (Nat.div_add_mod row k).symm⟩

/-! ### Lengths of the planes and of a frame (42_subsampler R129, R130) -/

@[simp] theorem yPlane_length (w h : Nat) (px : Nat → Nat → Pixel) : (yPlane w h px).length = w * h :=
  (plane_length h w _).trans (Nat.mul_comm h w)

@[simp] theorem cbPlane_length (m : Mode) (w h : Nat) (px : Nat → Nat → Pixel) :
    (cbPlane m w h px).length = w / m.hx * (h / m.vy) :=
  (plane_length _ _ _).trans (Nat.mul_comm _ _)

@[simp] theorem crPlane_length (m : Mode) (w h : Nat) (px : Nat → Nat → Pixel) :
    (crPlane m w h px).length = w / m.hx * (h / m.vy) :=
  (plane_length _ _ _).trans (Nat.mul_comm _ _)

theorem planes_length (m : Mode) (w h : Nat) (px : Nat → Nat → Pixel) :
    (planes m w h px).length = w * h + 2 * (w / m.hx * (h / m.vy)) := by
  simp only [planes, List.length_append, yPlane_length, cbPlane_length, crPlane_length]
  omega

theorem frameSize_eq (m : Mode) (w h : Nat) : frameSize m w h = w * h + 2 * (w / m.hx * (h / m.vy)) := by
  rw [frameSize, Nat.mul_assoc]

theorem frameBytes_length (m : Mode) (w h : Nat) (px : Nat → Nat → Pixel) :
    (frameBytes m w h px).length = 6 + frameSize m w h := by
  rw [frameBytes, List.length_append, planes_length, ← frameSize_eq]
  rfl

/-- In a cropped picture each chroma sample stands for `HX * VY` pixels (R129). -/
theorem chromaSize_mul_blockSize (hw : w % m.hx = 0) (hh : h % m.vy = 0) : w / m.hx * (h / m.vy) * (m.hx * m.vy) = w * h := by
  rw [Nat.mul_mul_mul_comm, Nat.div_mul_cancel (Nat.dvd_of_mod_eq_zero hw), Nat.div_mul_cancel (Nat.dvd_of_mod_eq_zero hh)]

/-- The luma plane and the two chroma planes together, with the block size as the common denominator (R129). -/
theorem frameSize_mul_blockSize (hw : w % m.hx = 0) (hh : h % m.vy = 0) :
    frameSize m w h * (m.hx * m.vy) = (m.hx * m.vy + 2) * (w * h) := by
  rw [frameSize_eq, Nat.add_mul, Nat.mul_assoc 2, chromaSize_mul_blockSize hw hh, Nat.add_mul, Nat.mul_comm (w * h)]

/-! ### The chroma planes, layout by layout and in general (42_subsampler R124 to R128, R133) -/

theorem chromaBlueAvg_singleton (p : Pixel) : chromaBlueAvg [p] = chromaBlue p := by
  simp only [chromaBlueAvg, chromaBlue, rawSum, Int.add_zero, List.length_singleton]

theorem chromaRedAvg_singleton (p : Pixel) : chromaRedAvg [p] = chromaRed p := by
  simp only [chromaRedAvg, chromaRed, rawSum, Int.add_zero, List.length_singleton]

/-- Both chroma planes at once, with the numbers of rows and columns as a layout rule writes them. -/
theorem chromaPlanes_eq {rows cols : Nat} (px : Nat → Nat → Pixel) (hrows : h / m.vy = rows) (hcols : w / m.hx = cols) :
    cbPlane m w h px = plane rows cols (fun i j => chromaBlueAvg (blockPixels m px i j))
      ∧ crPlane m w h px = plane rows cols (fun i j => chromaRedAvg (blockPixels m px i j)) := by
  subst hrows hcols
  exact ⟨rfl, rfl⟩

/-- The five layouts list the pixels of an `HX` by `VY` block, row by row (R133). -/
theorem blockPixels_eq_flatMap (m : Mode) (px : Nat → Nat → Pixel) (i j : Nat) :
    blockPixels m px i j =
      (List.range m.vy).flatMap fun a => (List.range m.hx).map fun c => px (m.vy * i + a) (m.hx * j + c) := by
  cases m <;> simp [blockPixels, Mode.block, Mode.hx, Mode.vy, List.range_succ]

theorem cbPlane_get (px : Nat → Nat → Pixel) (hi : i < h / m.vy) (hj : j < w / m.hx) :
    (cbPlane m w h px)[i * (w / m.hx) + j]? = some (chromaBlueAvg (blockPixels m px i j)) := plane_get _ hi hj

theorem crPlane_get (px : Nat → Nat → Pixel) (hi : i < h / m.vy) (hj : j < w / m.hx) :
    (crPlane m w h px)[i * (w / m.hx) + j]? = some (chromaRedAvg (blockPixels m px i j)) := plane_get _ hi hj

/-! ### The obligations of the subsampler -/

/-- Settles O37: the Y plane is a plane of `h` rows and `w` columns in every mode. -/
theorem lumaPlaneOrder : Obligations.LumaPlaneOrder := by
  unfold Obligations.LumaPlaneOrder
  exact fun w h px => ⟨yPlane_length w h px, fun _ _ hi hj => plane_get (fun i j => luma (px i j)) hi hj⟩

/-- Settles O38: a layout rule leaves out the division by a factor of 1, and C444 the average of one pixel. -/
theorem chromaLayoutsPerMode : Obligations.ChromaLayoutsPerMode := by
  unfold Obligations.ChromaLayoutsPerMode
  intro w h px
  refine ⟨?c444, fun _ => ?c422, fun _ _ => ?c420, fun _ => ?c411, fun _ _ => ?c410, fun m _ _ => ?sizes⟩
  case c444 =>
    simpa only [blockPixels, Mode.block, List.map_cons, List.map_nil, chromaBlueAvg_singleton, chromaRedAvg_singleton] using
      chromaPlanes_eq (m := .c444) px (Nat.div_one h) (Nat.div_one w)
  case c422 => exact chromaPlanes_eq (m := .c422) px (Nat.div_one h) rfl
  case c420 => exact chromaPlanes_eq (m := .c420) px rfl rfl
  case c411 => exact chromaPlanes_eq (m := .c411) px (Nat.div_one h) rfl
  case c410 => exact chromaPlanes_eq (m := .c410) px rfl rfl
  case sizes => exact ⟨cbPlane_length m w h px, crPlane_length m w h px, planes_length m w h px⟩

/-- Settles O39: rows and columns each fall into runs, and a place is in the run of its quotient only (`exists_run_iff`). -/
theorem chromaBlocksTileThePicture : Obligations.ChromaBlocksTileThePicture := by
  unfold Obligations.ChromaBlocksTileThePicture
  refine ⟨fun m w h px i j _ _ hi hj => ?_, fun m w h row col hw hh hrow hcol => ⟨?_, ?_, fun i j => ?_⟩⟩
  · rw [← blockPixels_eq_flatMap]
    exact ⟨cbPlane_get px hi hj, crPlane_get px hi hj,
      fun _ _ ha hc => ⟨mul_add_lt_of_lt_div hi ha, mul_add_lt_of_lt_div hj hc⟩⟩
  · exact Nat.div_lt_div_of_lt_of_dvd (Nat.dvd_of_mod_eq_zero hh) hrow
  · exact Nat.div_lt_div_of_lt_of_dvd (Nat.dvd_of_mod_eq_zero hw) hcol
  · rw [← exists_run_iff m.vy_pos, ← exists_run_iff m.hx_pos]
    constructor
    · rintro ⟨a, c, ha, hc, hra, hcc⟩
      exact ⟨⟨a, ha, hra⟩, c, hc, hcc⟩
    · rintro ⟨⟨a, ha, hra⟩, c, hc, hcc⟩
      exact ⟨a, c, ha, hc, hra, hcc⟩

/-- Settles O40: under exact crops the divisions lose nothing (`chromaSize_mul_blockSize`). -/
theorem planeAndFrameSizes : Obligations.PlaneAndFrameSizes := by
  unfold Obligations.PlaneAndFrameSizes
  intro m w h px hw hh
  have hchroma := chromaSize_mul_blockSize hw hh
  have hsize := frameSize_mul_blockSize hw hh
  refine ⟨yPlane_length w h px, by rw [cbPlane_length, hchroma], by rw [crPlane_length, hchroma],
    (planes_length m w h px).trans (frameSize_eq m w h).symm, frameBytes_length m w h px, ?table, fun hbound => ?bound⟩
  case table =>
    simp only [Nat.mul_assoc]
    cases m <;> (simp only [Mode.hx, Mode.vy] at hsize ⊢; omega)
  case bound => cases m <;> (simp only [Mode.hx, Mode.vy] at hsize ⊢; omega)

/-- Settles O36: what the crop cuts off is the remainder by the factor, which is less than the factor. -/
theorem cropToMultiples : Obligations.CropToMultiples := by
  unfold Obligations.CropToMultiples
  exact fun m nw nh => ⟨cropWidth_mod m nw, cropHeight_mod m nh, Nat.sub_le _ _, lt_sub_mod_add m.hx_pos _,
    Nat.sub_le _ _, lt_sub_mod_add m.vy_pos _, by cases m <;> rfl⟩

/-- Settles O41: the frame is already put together in that order; only the concatenation is regrouped. -/
theorem frameBytesInOrder : Obligations.FrameBytesInOrder := by
  unfold Obligations.FrameBytesInOrder
  intro m w h px
  simp only [frameBytes, planes, marker, List.append_assoc]

end Sys2Proof.Machine

namespace Sys2Proof.Machine

/-! ### Decimal text (43_y4m_framer R141), read off the library's digits, which stand least significant first -/

/-- The ASCII character of a digit. -/
def digitByte (d : Nat) : Byte := BitVec.ofNat 8 (0x30 + d)

theorem digitByte_toNat {d : Nat} (hd : d < 10) : (digitByte d).toNat = 0x30 + d := by
  rw [digitByte, BitVec.toNat_ofNat]
  omega

theorem decDigits_eq_digits {fuel n : Nat} (hn : n ≠ 0) (hfuel : n < 2 ^ fuel) :
    decDigits fuel n = (Nat.digits 10 n).reverse.map digitByte := by
  induction fuel generalizing n with
  | zero => exact absurd (Nat.lt_one_iff.mp hfuel) hn
  | succ fuel ih =>
    rw [decDigits]
    split
    case isTrue hlt => simp [Nat.digits_of_lt 10 n hn hlt, digitByte]
    case isFalse hge =>
      rw [ih (by omega) (by omega), Nat.digits_eq_cons_digits_div (by decide) hn]
      simp [digitByte]

theorem dec_eq_digits {n : Nat} (hn : n ≠ 0) : dec n = (Nat.digits 10 n).reverse.map digitByte :=
  decDigits_eq_digits hn Nat.lt_log2_self

/-- Reading a text back: its last character is the digit of the ones. -/
theorem foldl_digitBytes {ds : List Nat} (hds : ∀ d ∈ ds, d < 10) :
    (ds.reverse.map digitByte).foldl (fun acc c => 10 * acc + (c.toNat - 0x30)) 0 = Nat.ofDigits 10 ds := by
  induction ds with
  | nil => rfl
  | cons d ds ih =>
    obtain ⟨hd, hds⟩ := List.forall_mem_cons.mp hds
    simp only [List.reverse_cons, List.map_append, List.foldl_append, ih hds, List.map_cons, List.map_nil, List.foldl_cons,
      List.foldl_nil, digitByte_toNat hd, Nat.ofDigits_cons]
    omega

theorem dec_value (n : Nat) : (dec n).foldl (fun acc c => 10 * acc + (c.toNat - 0x30)) 0 = n := by
  rcases eq_or_ne n 0 with rfl | hn
  · rfl
  · rw [dec_eq_digits hn, foldl_digitBytes fun d => Nat.digits_lt_base (by decide), Nat.ofDigits_digits]

theorem dec_digits {n : Nat} : ∀ c ∈ dec n, 0x30 ≤ c.toNat ∧ c.toNat ≤ 0x39 := by
  rcases eq_or_ne n 0 with rfl | hn
  · decide
  · rw [dec_eq_digits hn, List.forall_mem_map]
    intro d hd
    have hlt : d < 10 := Nat.digits_lt_base (by decide) (List.mem_reverse.mp hd)
    rw [digitByte_toNat hlt]
    omega

/-- The first character is that of the library's last digit, which is not zero. -/
theorem dec_no_leading_zero {n : Nat} (hn : n ≠ 0) : ∃ c cs, dec n = c :: cs ∧ c ≠ 0x30#8 := by
  have hne : Nat.digits 10 n ≠ [] := Nat.digits_ne_nil_iff_ne_zero.mpr hn
  have htop := Nat.getLast_digit_ne_zero 10 hn
  have hlt := Nat.digits_lt_base (by decide) (List.getLast_mem hne)
  rw [dec_eq_digits hn, ← List.dropLast_append_getLast hne, List.reverse_append]
  refine ⟨_, _, rfl, fun heq => htop ?_⟩
  have hval := digitByte_toNat hlt
  rw [heq] at hval
  exact Nat.add_left_cancel hval.symm

/-- Settles O42: the text is the library's digits in reverse, each as its character. (`Machine.decimalText` is the assembler's reader of
numbers.) -/
theorem Framer.decimalText : Obligations.DecimalText := by
  unfold Obligations.DecimalText
  exact ⟨rfl, fun n => ⟨dec_value n, dec_digits, fun hn => dec_no_leading_zero (Nat.one_le_iff_ne_zero.mp hn)⟩⟩

/-! ### How long a decimal text is -/

theorem dec_length {n : Nat} (hn : n ≠ 0) : (dec n).length = (Nat.digits 10 n).length := by
  rw [dec_eq_digits hn, List.length_map, List.length_reverse]

theorem one_le_dec_length (n : Nat) : 1 ≤ (dec n).length := by
  rcases eq_or_ne n 0 with rfl | hn
  · decide
  · obtain ⟨c, cs, hdec, -⟩ := dec_no_leading_zero hn
    simp [hdec]

theorem dec_word_length_le (v : Word) : (dec v.toNat).length ≤ 10 := by
  rcases eq_or_ne v.toNat 0 with h0 | hn
  · rw [h0]
    decide
  · rw [dec_length hn, Nat.digits_length_le_iff (by decide)]
    omega

/-- Two numbers have at most eleven digits together when their product is below `10 ^ 10`: a text of `k` digits stands for at least
`10 ^ (k - 1)`. -/
theorem dec_length_add_le {w h : Nat} (hw : w ≠ 0) (hh : h ≠ 0) (hmul : w * h < 2 ^ 32) :
    (dec w).length + (dec h).length ≤ 11 := by
  rw [dec_length hw, dec_length hh]
  have hpow : 10 ^ ((Nat.digits 10 w).length + (Nat.digits 10 h).length) < 10 ^ 12 :=
    calc 10 ^ ((Nat.digits 10 w).length + (Nat.digits 10 h).length)
        = 10 ^ (Nat.digits 10 w).length * 10 ^ (Nat.digits 10 h).length := Nat.pow_add ..
      _ ≤ 10 * w * (10 * h) := Nat.mul_le_mul (Nat.base_pow_length_digits_le 10 w (by decide) hw)
          (Nat.base_pow_length_digits_le 10 h (by decide) hh)
      _ = 100 * (w * h) := by ring
      _ < 10 ^ 12 := by omega
  exact Nat.le_of_lt_succ ((Nat.pow_lt_pow_iff_right (by decide)).mp hpow)

/-! ### The header line (43_y4m_framer R143 to R147) -/

/-- Settles O43: the parts are concatenated in that order, and the extension is emitted when EXTOK (`extOk_iff`). -/
theorem headerLine : Obligations.HeaderLine := by
  unfold Obligations.HeaderLine
  intro s
  refine ⟨s.extField, ?line, fun hext => ?valid, fun hext => ?invalid⟩
  case line =>
    simp only [header, List.append_assoc]
    rfl
  case valid =>
    rw [State.extField, if_pos ((extOk_iff s).mpr hext)]
    rfl
  case invalid => rw [State.extField, if_neg fun hok => hext ((extOk_iff s).mp hok)]

theorem positive_eq_false_iff (v : Word) : positive v = false ↔ v.toInt ≤ 0 := by
  simp [positive]

theorem headerBad_iff (w h : Nat) (s : State) : headerBad w h s = true ↔
    (w = 0 ∨ h = 0 ∨ s.frn.toInt ≤ 0 ∨ s.frd.toInt ≤ 0 ∨ s.parn.toInt ≤ 0 ∨ s.pard.toInt ≤ 0
      ∨ (s.il ≠ 0x70#8 ∧ s.il ≠ 0x74#8 ∧ s.il ≠ 0x62#8 ∧ s.il ≠ 0x6D#8)) := by
  simp [headerBad, positive_eq_false_iff, interlaceFlags, or_assoc]

/-- Settles O44: HDRBAD is the disjunction of its clauses. -/
theorem headerValidity : Obligations.HeaderValidity := by
  unfold Obligations.HeaderValidity
  exact headerBad_iff

@[simp] theorem Mode.tag_length (m : Mode) : m.tag.length = 4 := by cases m <;> rfl

theorem State.extField_length (s : State) : s.extField.length = if s.extOk then s.extlen.toNat + 2 else 0 := by
  rw [State.extField]
  split
  · simp [State.extBytes, fieldStart]
  · rfl

theorem State.extField_length_le (s : State) : s.extField.length ≤ 202 := by
  rw [s.extField_length]
  split
  next hok =>
    obtain ⟨-, hle, -⟩ := (extOk_iff s).mp hok
    omega
  next => omega

theorem header_length (s : State) :
    (header s).length = 28 + (dec s.ew.toNat).length + (dec s.eh.toNat).length + (dec s.frn.toNat).length
      + (dec s.frd.toNat).length + (dec s.parn.toNat).length + (dec s.pard.toNat).length + s.extField.length := by
  simp only [header, magic, fieldStart, List.length_append, List.length_cons, List.length_nil, Mode.tag_length]
  omega

theorem thirtyFour_le_header_length (s : State) : 34 ≤ (header s).length := by
  have hw := one_le_dec_length s.ew.toNat
  have hh := one_le_dec_length s.eh.toNat
  have hfrn := one_le_dec_length s.frn.toNat
  have hfrd := one_le_dec_length s.frd.toNat
  have hparn := one_le_dec_length s.parn.toNat
  have hpard := one_le_dec_length s.pard.toNat
  rw [header_length]
  omega

theorem Inv.header_length_le {s : State} (h : Inv s) (ho : s.session = .opened) : (header s).length ≤ 281 := by
  obtain ⟨hw, hh⟩ := h.nonEmpty ho
  have hsize : (dec s.ew.toNat).length + (dec s.eh.toNat).length ≤ 11 :=
    dec_length_add_le (by omega) (by omega) (Nat.lt_of_le_of_lt h.fits h.capacity.2)
  have hfrn := dec_word_length_le s.frn
  have hfrd := dec_word_length_le s.frd
  have hparn := dec_word_length_le s.parn
  have hpard := dec_word_length_le s.pard
  have hext := s.extField_length_le
  rw [header_length]
  omega

/-- Settles O45: at most 11 digits for EW and EH together (`dec_length_add_le`), 40 for the rates and the aspect, and 202 bytes of
extension. -/
theorem headerLength : Obligations.HeaderLength := by
  unfold Obligations.HeaderLength
  exact fun s => ⟨by rw [header_length, s.extField_length],
    fun h ho => ⟨thirtyFour_le_header_length s, h.header_length_le ho⟩⟩

end Sys2Proof.Machine

namespace Sys2Proof.Machine

variable {s t : State} {i : Instr} {m : Mode} {op : Byte} {arg : Word} {form : Form} {make : Word → Instr} {run : State → Result}

/-! ### Command words, by the form of the operand (30_encoding R73, R76) -/

theorem decode_zeroExtended {c : Byte} (hwf : i.wellFormed = true) (hword : encode i = op ++ c.setWidth 32) :
    decode (op ++ (0#24 ++ c)) = .ok i := by
  rw [zeroExtended_byte, ← hword]
  exact decode_encode hwf

theorem illegalOutsideFailed_of_bound (hop : operation op = some (form, make)) (h : form.operandBound ≤ arg.toNat) :
    IllegalOutsideFailed (op ++ arg) := illegalOutsideFailed_of_decode (decode_operandBits hop h)

/-- A command without operand bears no operand bit. -/
theorem decode_of_operand_ne_zero (hop : operation op = some (.none, make)) (h : arg ≠ 0#32) :
    decode (op ++ arg) = .error (.reservedOperandBits op arg) :=
  decode_operandBits hop (Nat.one_le_iff_ne_zero.mpr fun h0 => h (BitVec.eq_of_toNat_eq h0))

theorem illegalOutsideFailed_of_ne_zero (hop : operation op = some (.none, make)) (h : arg ≠ 0#32) :
    IllegalOutsideFailed (op ++ arg) := illegalOutsideFailed_of_decode (decode_of_operand_ne_zero hop h)

/-! ### Legality and counters -/

theorem legalInOpenOnly_of_whenOpened (h : ∀ s, exec i s = whenOpened run s) : LegalInOpenOnly i :=
  fun s => ⟨fun hi => by rw [h, whenOpened_idle hi]; rfl, fun hf => by rw [h, whenOpened_failed hf]; rfl⟩

/-- A counter of `n` bits, as a number. -/
theorem add_ofNat_eq {n : Nat} (x : BitVec n) (k : Nat) : x + BitVec.ofNat n k = BitVec.ofNat n (x.toNat + k) := by
  rw [BitVec.ofNat_add, BitVec.ofNat_toNat, BitVec.setWidth_eq]

/-- Settles O7: the port gives the step the command and the state with the word taken. -/
theorem stepRunsDecodedCommand : Obligations.StepRunsDecodedCommand := by
  unfold Obligations.StepRunsDecodedCommand
  exact fun s w rest i hp hd => step_command hp hd

/-! ### RESET (44_session_commands R185) -/

/-- No command but RESET takes the fault shown in ERR away (10_state R26). -/
theorem Took.err_shown (h : Took s i t) (hr : i ≠ .reset) (hs : s.err ≠ none) : t.err ≠ none := by
  cases h with
  | reset => exact absurd rfl hr
  | faulted | openShort | frameShort => simp
  | opened m u _ _ hu => subst hu; simpa using hs
  | _ => simpa using hs

theorem Took.failed_kept (h : Took s i t) (hr : i ≠ .reset) (hs : s.session = .failed) : t.session = .failed := by
  rcases h.session_moves hr with hsame | ⟨hidle, -⟩ | ⟨hopen, -⟩ | ⟨hlive, -⟩
  · exact hsame.trans hs
  · simp [hs] at hidle
  · simp [hs] at hopen
  · exact absurd hs hlive

/-- Settles O11: RESET restores every register from any state, and a command that leaves FAILED or clears ERR is RESET by
`Took.failed_kept` and `Took.err_shown`. -/
theorem resetCommand : Obligations.ResetCommand := by
  unfold Obligations.ResetCommand
  refine ⟨rfl, fun s => ⟨_, rfl, rfl, rfl, rfl⟩, fun i s t hexec hleft => ?_, fun arg harg => ⟨?_, fun s rest hp hf => ?_⟩⟩
  · by_contra hr
    have ht := exec_took hexec
    rcases hleft with ⟨hs, hlive⟩ | ⟨hs, hcleared⟩
    · exact hlive (ht.failed_kept hr hs)
    · exact ht.err_shown hr hs hcleared
  · exact illegalOutsideFailed_of_ne_zero rfl harg
  · exact step_illegal_failed (decode_of_operand_ne_zero rfl harg) hp hf

/-! ### Configuration commands (44_session_commands R163 to R171) -/

/-- A command that in IDLE makes the update `f`, whose rule has no other case: its word, its legality and its effect. -/
theorem configurationCommand (f : State → State) (hwf : i.wellFormed = true)
    (h : ∀ s, exec i s = whenIdle (fun u => .next (State.done 0#32 (f u))) s) :
    decode (encode i) = .ok i ∧ LegalInIdleOnly i
      ∧ ∀ s : State, s.session = .idle → exec i s = .next ((f s).answered 0x0000000000#40) :=
  ⟨decode_encode hwf, legalInIdleOnly_of_whenIdle h, fun s hi => by rw [h, whenIdle_idle hi]; rfl⟩

/-! ### The checks of OPEN in their order (44_session_commands R172 steps 2 to 5) -/

theorem exec_openInstr_idle (hi : s.session = .idle) : exec (openInstr m) s = openSession m s := by
  rw [exec_openInstr, whenIdle_idle hi]

theorem exec_openInstr_zeroSize (hi : s.session = .idle) (hzero : cropWidth m s.nw = 0 ∨ cropHeight m s.nh = 0) :
    exec (openInstr m) s = .next (s.faulted .zeroSizeOutput 0x0400000000#40) := by
  rw [exec_openInstr_idle hi]
  exact if_pos hzero

theorem exec_openInstr_headerBad (hi : s.session = .idle) (hw : cropWidth m s.nw ≠ 0) (hh : cropHeight m s.nh ≠ 0)
    (hbad : headerBad (cropWidth m s.nw) (cropHeight m s.nh) s = true) :
    exec (openInstr m) s = .next (s.faulted .containerHeader 0x0700000000#40) := by
  rw [exec_openInstr_idle hi]
  exact (if_neg (not_or_intro hw hh)).trans (if_pos hbad)

theorem exec_openInstr_allocation (hi : s.session = .idle) (hw : cropWidth m s.nw ≠ 0) (hh : cropHeight m s.nh ≠ 0)
    (hgood : headerBad (cropWidth m s.nw) (cropHeight m s.nh) s = false)
    (hcap : s.pbCapacity < cropWidth m s.nw * cropHeight m s.nh) :
    exec (openInstr m) s = .next (s.faulted .allocation 0x0500000000#40) := by
  rw [exec_openInstr_idle hi]
  exact (if_neg (not_or_intro hw hh)).trans ((if_neg (by rw [hgood]; decide)).trans (if_pos hcap))

/-- With its checks passed OPEN commits and emits the header of the session (R172 steps 6 to 8). -/
theorem exec_openInstr_emit (hi : s.session = .idle) (ok : s.canOpen m) :
    exec (openInstr m) s =
      emit (header (s.committed m (cropWidth m s.nw) (cropHeight m s.nh))) (fun u => .next (u.done u.warnWord))
        (s.committed m (cropWidth m s.nw) (cropHeight m s.nh)) := by
  obtain ⟨hw, hh, hgood, hcap⟩ := ok
  rw [exec_openInstr_idle hi]
  exact (if_neg (not_or_intro hw hh)).trans
    ((if_neg (by rw [hgood]; decide)).trans (if_neg (Nat.not_lt.mpr hcap)))

/-- With good dimensions the check of the header looks at the other values only (43_y4m_framer R143). -/
theorem headerBad_eq_false_iff {w h : Nat} (hw : w ≠ 0) (hh : h ≠ 0) : headerBad w h s = false ↔ s.headerValuesValid := by
  rw [← Bool.not_eq_true, headerBad_iff, State.headerValuesValid]
  simp only [hw, hh, false_or, not_or, not_le, not_and_or, not_not, ne_eq]

theorem headerBad_eq_true_iff {w h : Nat} (hw : w ≠ 0) (hh : h ≠ 0) : headerBad w h s = true ↔ ¬ s.headerValuesValid := by
  rw [← headerBad_eq_false_iff hw hh, Bool.not_eq_false]

/-- Settles O18: OPEN finds the bad values in the order of its checks; the six commands differ in the register they write. -/
theorem wordConfigurationCommands : Obligations.WordConfigurationCommands := by
  unfold Obligations.WordConfigurationCommands
  refine ⟨fun s m hi => ⟨fun hzero => exec_openInstr_zeroSize hi ?_, fun hw hh hbad => exec_openInstr_headerBad hi hw hh ?_⟩,
    fun v => ⟨?_, ?_, ?_, ?_, ?_, ?_⟩⟩
  · exact hzero.imp (fun h => by simp [cropWidth, h]) (fun h => by simp [cropHeight, h])
  · rw [headerBad_iff]
    tauto
  · exact configurationCommand (i := .setnw v) (fun u => { u with nw := v }) rfl fun _ => rfl
  · exact configurationCommand (i := .setnh v) (fun u => { u with nh := v }) rfl fun _ => rfl
  · exact configurationCommand (i := .setfrn v) (fun u => { u with frn := v }) rfl fun _ => rfl
  · exact configurationCommand (i := .setfrd v) (fun u => { u with frd := v }) rfl fun _ => rfl
  · exact configurationCommand (i := .setparn v) (fun u => { u with parn := v }) rfl fun _ => rfl
  · exact configurationCommand (i := .setpard v) (fun u => { u with pard := v }) rfl fun _ => rfl

/-- Settles O19: SETIL stores its byte as it stands, and a byte that is no flag is one of the clauses of HDRBAD. -/
theorem interlaceFlagCommand : Obligations.InterlaceFlagCommand := by
  unfold Obligations.InterlaceFlagCommand
  refine ⟨fun c => ?_, fun arg harg => illegalOutsideFailed_of_bound rfl harg, fun s m hi hw hh hp ht hb hm => ?_, rfl⟩
  · rw [zeroExtended_byte]
    exact configurationCommand (i := .setil c) (fun u => { u with il := c }) rfl fun _ => rfl
  · refine exec_openInstr_headerBad hi hw hh ((headerBad_iff ..).mpr ?_)
    tauto

/-- Settles O20: EXTCLR writes EXTLEN and nothing else. -/
theorem extensionClear : Obligations.ExtensionClear := by
  unfold Obligations.ExtensionClear
  obtain ⟨hword, hlegal, hrun⟩ := configurationCommand (i := .extclr) (fun u => { u with extlen := 0#32 }) rfl fun _ => rfl
  exact ⟨hword, hlegal, hrun, fun arg harg => illegalOutsideFailed_of_ne_zero rfl harg⟩

/-- Settles O21: the push stores below 200 (`pushExt_extAt` for the bytes of EXT) and drops from there on. -/
theorem extensionPush : Obligations.ExtensionPush := by
  unfold Obligations.ExtensionPush
  refine ⟨fun c => ?_, fun arg harg => illegalOutsideFailed_of_bound rfl harg⟩
  rw [zeroExtended_byte]
  obtain ⟨hword, hlegal, hrun⟩ := configurationCommand (i := .extb c) (State.pushExt c) rfl fun _ => rfl
  refine ⟨hword, hlegal, fun s h hi => ⟨fun hroom => ⟨(s.pushExt c).ext, ?_, pushExt_extAt h c hroom⟩, fun hfull => ?_⟩⟩
  · rw [hrun s hi, State.pushExt_stored c s hroom, add_ofNat_eq]
  · rw [hrun s hi, State.pushExt_dropped c s hfull]

/-! ### OPEN (44_session_commands R172 to R178) -/

theorem exec_openBadmode (c : Byte) (hi : s.session = .idle) :
    exec (.openBadmode c) s = .next (s.faulted .containerHeader 0x0700000000#40) := by
  rw [exec, execOpenBadmode, whenIdle_idle hi]
  rfl

/-- Settles O24: whatever the code and the registers are, OPEN.BADMODE raises at once. -/
theorem openBadModeCode : Obligations.OpenBadModeCode := by
  unfold Obligations.OpenBadModeCode
  intro c hc
  exact ⟨decode_zeroExtended (decide_eq_true hc) rfl, legalInIdleOnly_of_whenIdle fun _ => rfl, fun s hi => exec_openBadmode c hi⟩

theorem Mode.advisory_iff (m : Mode) : m.advisory = true ↔ m = .c410 := by cases m <;> decide

/-- Bit 0 of OPEN's response data is WARN (R162). -/
theorem advisory_response (m : Mode) :
    (0#8 ++ (BitVec.ofBool m.advisory).setWidth 32 : PortWord) =
      if m.advisory then 0x0000000001#40 else 0x0000000000#40 := by
  cases m <;> decide

theorem committed_sinkTakes (s : State) (m : Mode) (w h n : Nat) (bs : List Byte) :
    (s.committed m w h).sinkTakes n bs =
      { s.committed m w h with
        out := s.out ++ bs.take n, bytes := BitVec.ofNat 64 n, sinkScript := s.sinkScript.tail,
        sinkDraws := s.sinkDraws + 1 } := by
  rw [State.sinkTakes, show (s.committed m w h).bytes = 0#64 from rfl, BitVec.zero_add]
  rfl

theorem afterOpen_eq (s : State) (m : Mode) {u : State} (hu : u = s.committed m (cropWidth m s.nw) (cropHeight m s.nh)) :
    s.afterOpen m = State.answered
      { u with
        out := s.out ++ header u, bytes := BitVec.ofNat 64 (header u).length, sinkScript := s.sinkScript.tail,
        sinkDraws := s.sinkDraws + 1 }
      (if m.advisory then 0x0000000001#40 else 0x0000000000#40) := by
  have htakes := committed_sinkTakes s m (cropWidth m s.nw) (cropHeight m s.nh) (header u).length (header u)
  rw [← hu, List.take_length] at htakes
  rw [← advisory_response, ← htakes, hu]
  rfl

/-- The sink takes the header whole, by whatever answer. -/
theorem exec_openInstr_all (hi : s.session = .idle) (ok : s.canOpen m) {u : State}
    (hu : u = s.committed m (cropWidth m s.nw) (cropHeight m s.nh))
    (hall : s.sinkAnswer.accepted (header u).length = (header u).length) : exec (openInstr m) s = .next (s.afterOpen m) := by
  subst hu
  exact (exec_openInstr_emit hi ok).trans (emit_all hall)

/-- The sink takes the first bytes of the header only (20_memory R58). -/
theorem exec_openInstr_short (hi : s.session = .idle) (ok : s.canOpen m) {u : State}
    (hu : u = s.committed m (cropWidth m s.nw) (cropHeight m s.nh))
    (hshort : s.sinkAnswer.accepted (header u).length < (header u).length) :
    exec (openInstr m) s = .next ((u.sinkTakes (s.sinkAnswer.accepted (header u).length) (header u)).raise .io) := by
  subst hu
  exact (exec_openInstr_emit hi ok).trans (emit_short hshort)

theorem header_done (s : State) (d : Word) : header (s.done d) = header s := rfl

theorem header_sinkTakes (s : State) (n : Nat) (bs : List Byte) : header (s.sinkTakes n bs) = header s := rfl

theorem header_afterOpen (s : State) (m : Mode) :
    header (s.afterOpen m) = header (s.committed m (cropWidth m s.nw) (cropHeight m s.nh)) :=
  (header_done _ _).trans (header_sinkTakes _ _ _)

/-- Settles O22: the checks each end OPEN before anything changed; past them only the count the sink takes of the header decides. -/
theorem openCommand : Obligations.OpenCommand := by
  unfold Obligations.OpenCommand
  refine ⟨fun c s _ hi => exec_openBadmode c hi, fun m => ⟨legalInIdleOnly_of_whenIdle (exec_openInstr m),
    fun arg harg => illegalOutsideFailed_of_bound rfl harg, fun s w h hi hw hh => ?_⟩⟩
  obtain rfl : w = cropWidth m s.nw := hw
  obtain rfl : h = cropHeight m s.nh := hh
  refine ⟨exec_openInstr_zeroSize hi,
    fun hw hh hbad => exec_openInstr_headerBad hi hw hh ((headerBad_eq_true_iff hw hh).mpr hbad),
    fun hw hh hvalid => exec_openInstr_allocation hi hw hh ((headerBad_eq_false_iff hw hh).mpr hvalid),
    fun hw hh hvalid hcap => ?emission⟩
  case emission =>
    have ok : s.canOpen m := ⟨hw, hh, (headerBad_eq_false_iff hw hh).mpr hvalid, hcap⟩
    refine ⟨_, s.sinkDraws + 1, s.sinkScript.tail, rfl, fun hall => ?_, fun hshort => ?_⟩
    · rw [exec_openInstr_all hi ok rfl hall, afterOpen_eq s m rfl, hall]
      simp only [m.advisory_iff]
    · rw [exec_openInstr_short hi ok rfl hshort, committed_sinkTakes]
      rfl

theorem cropWidth_eq_zero {nw : Word} (h : nw.toNat < m.hx) : cropWidth m nw = 0 := by
  rw [cropWidth, Nat.mod_eq_of_lt h, Nat.sub_self]

theorem cropHeight_eq_zero {nh : Word} (h : nh.toNat < m.vy) : cropHeight m nh = 0 := by
  rw [cropHeight, Nat.mod_eq_of_lt h, Nat.sub_self]

theorem cropWidth_ne_zero {nw : Word} (h : m.hx ≤ nw.toNat) : cropWidth m nw ≠ 0 :=
  Nat.sub_ne_zero_of_lt (Nat.lt_of_lt_of_le (Nat.mod_lt _ m.hx_pos) h)

theorem cropHeight_ne_zero {nh : Word} (h : m.vy ≤ nh.toNat) : cropHeight m nh ≠ 0 :=
  Nat.sub_ne_zero_of_lt (Nat.lt_of_lt_of_le (Nat.mod_lt _ m.vy_pos) h)

/-- Past its checks OPEN answers a next state whose mode, dimensions and memories are those of its commit, whatever the sink takes;
a sink that takes everything leads to `State.afterOpen`. -/
theorem exec_openInstr_next (hi : s.session = .idle) (ok : s.canOpen m) :
    ∃ t, exec (openInstr m) s = .next t
      ∧ t = { s.committed m (cropWidth m s.nw) (cropHeight m s.nh) with
          session := t.session, err := t.err, out := t.out, bytes := t.bytes, sinkScript := t.sinkScript,
          sinkDraws := t.sinkDraws, responses := t.responses }
      ∧ (s.sinkAnswer = .takesAll → t = s.afterOpen m) := by
  rcases Nat.lt_or_eq_of_le (accepted_le s.sinkAnswer
    (header (s.committed m (cropWidth m s.nw) (cropHeight m s.nh))).length) with hshort | hall
  · refine ⟨_, exec_openInstr_short hi ok rfl hshort, rfl, fun hsink => ?_⟩
    rw [hsink, accepted_takesAll] at hshort
    exact absurd hshort (Nat.lt_irrefl _)
  · exact ⟨_, exec_openInstr_all hi ok rfl hall, rfl, fun _ => rfl⟩

/-- A frame has `num / den` bytes for each pixel of a cropped picture, beside the marker (42_subsampler R129). -/
theorem frameSize_ratio {w h num den : Nat} (hratio : den * (m.hx * m.vy + 2) = num * (m.hx * m.vy)) (hw : w % m.hx = 0)
    (hh : h % m.vy = 0) : den * frameSize m w h = num * (w * h) :=
  Nat.eq_of_mul_eq_mul_right (Nat.mul_pos m.hx_pos m.vy_pos) <|
    calc den * frameSize m w h * (m.hx * m.vy)
        = den * (m.hx * m.vy + 2) * (w * h) := by rw [Nat.mul_assoc, frameSize_mul_blockSize hw hh, Nat.mul_assoc]
      _ = num * (w * h) * (m.hx * m.vy) := by rw [hratio, Nat.mul_right_comm]

/-- The row of OPEN for a mode, with the factors, the tag, the advisory and the layout of the mode. -/
theorem openRow (m : Mode) {num den : Nat} (hratio : den * (m.hx * m.vy + 2) = num * (m.hx * m.vy)) :
    OpenRow (openInstr m) (encode (openInstr m)) m m.hx m.vy m.tag m.advisory num den m.block := by
  refine ⟨decode_encode (by cases m <;> rfl), rfl, fun s hi => ⟨fun hsmall => ?_, fun hw hh hvalid hcap => ?_⟩⟩
  · exact exec_openInstr_zeroSize hi (hsmall.imp cropWidth_eq_zero cropHeight_eq_zero)
  · have hw := cropWidth_ne_zero hw
    have hh := cropHeight_ne_zero hh
    obtain ⟨t, hexec, ht, htakesAll⟩ := exec_openInstr_next hi ⟨hw, hh, (headerBad_eq_false_iff hw hh).mpr hvalid, hcap⟩
    have hmode : t.mode = m := by rw [ht]; rfl
    have hew : t.ew.toNat = cropWidth m s.nw := by rw [ht]; exact startSession_ew_toNat s m s.nw (cropHeight m s.nh)
    have heh : t.eh.toNat = cropHeight m s.nh := by rw [ht]; exact startSession_eh_toNat s m s.nh (cropWidth m s.nw)
    have hframe : t.frameBytes = frameBytes m t.ew.toNat t.eh.toNat t.px := by rw [State.frameBytes, hmode]
    refine ⟨t, hexec, hmode, by rw [ht]; rfl, hew, heh, ?size, ?layout, fun hsink => ?taken⟩
    case size =>
      rw [hframe, frameBytes_length, Nat.add_sub_cancel_left, hew, heh]
      exact frameSize_ratio hratio (cropWidth_mod m s.nw) (cropHeight_mod m s.nh)
    case layout => exact hframe.trans (frameBytesInOrder m t.ew.toNat t.eh.toNat t.px)
    case taken =>
      obtain rfl := htakesAll hsink
      exact ⟨rfl, rfl, by rw [header_afterOpen, afterOpen_out], congrArg (s.responses ++ [·]) (advisory_response m)⟩

/-- Settles O23: each row is `openRow` of its mode. -/
theorem openRowsPerMode : Obligations.OpenRowsPerMode := by
  unfold Obligations.OpenRowsPerMode
  exact ⟨openRow .c444 rfl, openRow .c422 rfl, openRow .c420 rfl, openRow .c411 rfl, openRow .c410 rfl⟩

/-- The header of the document's scenario, which has no extension (95_test_vectors E7). -/
theorem header_scenario (hfrn : s.frn = 30#32) (hfrd : s.frd = 1#32) (hparn : s.parn = 1#32) (hpard : s.pard = 1#32)
    (hil : s.il = 0x70#8) (hext : s.extlen = 0#32) :
    header (s.committed .c420 64 64) = asciiText "YUV4MPEG2 W64 H64 F30:1 Ip A1:1 C420\n" := by
  have hnoext : (s.committed .c420 64 64).extField = [] := by
    rw [State.extField, if_neg]
    rw [extOk_iff, show (s.committed .c420 64 64).extlen = 0#32 from hext]
    exact fun hok => absurd hok.1 (by decide)
  rw [header, hnoext]
  simp only [State.committed, hfrn, hfrd, hparn, hpard, hil]
  decide

/-- Settles O46: the checks of OPEN pass for these registers, and the header is `header_scenario`. -/
theorem headerScenario : Obligations.HeaderScenario := by
  unfold Obligations.HeaderScenario
  intro s hi hnw hnh hfrn hfrd hparn hpard hil hext hcap hsink
  have hwidth : cropWidth .c420 s.nw = 64 := by rw [hnw]; rfl
  have hheight : cropHeight .c420 s.nh = 64 := by rw [hnh]; rfl
  have hvalid : s.headerValuesValid := by
    rw [State.headerValuesValid, hfrn, hfrd, hparn, hpard, hil]
    decide
  have ok : s.canOpen .c420 := by
    rw [State.canOpen, hwidth, hheight, headerBad_eq_false_iff (by decide) (by decide)]
    exact ⟨by decide, by decide, hvalid, hcap⟩
  have hheader := header_scenario hfrn hfrd hparn hpard hil hext
  have hu : s.committed .c420 64 64 = s.committed .c420 (cropWidth .c420 s.nw) (cropHeight .c420 s.nh) := by
    rw [hwidth, hheight]
  have hexec := exec_openInstr_all hi ok hu (by rw [hheader]; exact hsink)
  rw [afterOpen_eq s .c420 hu, hheader] at hexec
  exact ⟨_, hexec, rfl, rfl, rfl, rfl, rfl, rfl, rfl⟩

/-! ### PIX, FRAME, CLOSE, ABORT (44_session_commands R179 to R182) -/

/-- Settles O25: PIX stores at WP (`pushPixel_pixelAt` for the pixels of PB) while the picture has room. -/
theorem pixelLoad : Obligations.PixelLoad := by
  unfold Obligations.PixelLoad
  refine ⟨fun r g b => decode_encode (i := .pix ⟨r, g, b⟩) rfl, fun arg harg => illegalOutsideFailed_of_bound rfl harg,
    fun p => ⟨legalInOpenOnly_of_whenOpened fun _ => rfl, fun s ho => ⟨fun hfull => ?_, fun h hroom => ?_⟩⟩⟩
  · rw [exec, execPix, whenOpened_opened ho]
    exact if_pos hfull
  · refine ⟨(s.pushPixel p).pb, ?_, pushPixel_pixelAt h p⟩
    rw [exec_pix_ok ho (Nat.lt_of_le_of_ne h.loaded hroom) h.fits, ← add_ofNat_eq]
    rfl

theorem exec_frame_emit (ho : s.session = .opened) (full : s.wp.toNat = s.pictureSize) (fits : s.pictureSize ≤ s.pbCapacity) :
    exec .frame s = emit s.frameBytes (fun u => .next (State.done 0#32 u.finishFrame)) s := by
  rw [exec, execFrame, whenOpened_opened ho]
  exact (if_neg (not_not_intro full)).trans (if_neg (Nat.not_lt.mpr fits))

theorem State.sinkTakes_eq (s : State) (n : Nat) (bs : List Byte) :
    s.sinkTakes n bs =
      { s with
        out := s.out ++ bs.take n, bytes := BitVec.ofNat 64 (s.bytes.toNat + n), sinkScript := s.sinkScript.tail,
        sinkDraws := s.sinkDraws + 1 } := by
  rw [State.sinkTakes, add_ofNat_eq]

theorem State.finishFrame_eq (s : State) :
    s.finishFrame = { s with wp := 0#32, frames := BitVec.ofNat 32 (s.frames.toNat + 1) } := by
  rw [State.finishFrame, add_ofNat_eq]

/-- Settles O26: with a complete picture only the count the sink takes of the frame decides. -/
theorem frameCommand : Obligations.FrameCommand := by
  unfold Obligations.FrameCommand
  refine ⟨rfl, legalInOpenOnly_of_whenOpened fun _ => rfl, fun arg harg => illegalOutsideFailed_of_ne_zero rfl harg,
    fun s bytes ho hbytes => ⟨fun hpart => ?_,
      fun h full => ⟨_, s.sinkDraws + 1, s.sinkScript.tail, rfl, fun hall => ?_, fun hshort => ?_⟩⟩⟩
  · rw [exec, execFrame, whenOpened_opened ho]
    exact if_pos hpart
  all_goals obtain rfl : bytes = s.frameBytes := hbytes
  · rw [exec_frame_emit ho full h.fits, emit_all hall, State.sinkTakes_eq, State.finishFrame_eq, List.take_length, hall]
    rfl
  · rw [exec_frame_emit ho full h.fits, emit_short hshort, State.sinkTakes_eq]
    rfl

/-- Settles O28: WP decides between the end of the session and the fault. -/
theorem closeCommand : Obligations.CloseCommand := by
  unfold Obligations.CloseCommand
  refine ⟨rfl, legalInOpenOnly_of_whenOpened fun _ => rfl, fun arg harg => illegalOutsideFailed_of_ne_zero rfl harg,
    fun s ho => ⟨fun hwp => ?_, exec_close_ok ho⟩⟩
  rw [exec, execClose, whenOpened_opened ho]
  exact if_pos hwp

theorem upstreamError_eq_none {c : Byte} (h1 : c.toNat ≠ 1) (h2 : c.toNat ≠ 2) (h3 : c.toNat ≠ 3) : upstreamError c = none := by
  unfold upstreamError
  split
  · exact absurd rfl h1
  · exact absurd rfl h2
  · exact absurd rfl h3
  · rfl

theorem exec_abort_live (hs : s.session ≠ .failed) (c : Byte) :
    exec (.abort c) s = .next (s.raise ((upstreamError c).getD .illegalCommand)) := by
  rw [exec, execAbort, whenNotFailed_live hs]
  cases upstreamError c <;> rfl

theorem exec_abort_failed (hf : s.session = .failed) (c : Byte) : exec (.abort c) s = .next (s.answered 0x0C00000000#40) := by
  rw [exec, execAbort, whenNotFailed_failed hf]
  rfl

/-- Settles O29: outside FAILED every code raises, the three of `upstreamError` their own fault. -/
theorem abortCommand : Obligations.AbortCommand := by
  unfold Obligations.AbortCommand
  refine ⟨fun c => decode_zeroExtended rfl rfl, fun arg harg => illegalOutsideFailed_of_bound rfl harg,
    fun s => ⟨fun hs => ⟨exec_abort_live hs _, exec_abort_live hs _, exec_abort_live hs _, fun c h1 h2 h3 => ?_⟩,
      fun hf c => exec_abort_failed hf c⟩⟩
  rw [exec_abort_live hs, upstreamError_eq_none h1 h2 h3]
  rfl

/-! ### RD (44_session_commands R183, 10_state R24, R44) -/

/-- The control registers in the order of their indices (10_state R24). -/
def ControlReg.inOrder : List ControlReg :=
  [.status, .err, .nw, .nh, .frn, .frd, .parn, .pard, .il, .mode, .ew, .eh, .wp, .frames, .bytesLo, .bytesHi, .extlen]

theorem ControlReg.ofIndex_eq (k : Byte) : ControlReg.ofIndex k = ControlReg.inOrder[k.toNat]? := by
  revert k
  decide

theorem statusWord_eq (s : State) :
    s.statusWord =
      BitVec.ofNat 32 ((match s.session with | .idle => 0 | .opened => 1 | .failed => 2) + if s.warn then 4 else 0) := by
  unfold State.statusWord
  cases s.session <;> cases s.warn <;> rfl

theorem Mode.codeWord_eq (m : Mode) :
    (m.code.setWidth 32 : Word) =
      BitVec.ofNat 32 (match m with | .c444 => 0 | .c422 => 1 | .c420 => 2 | .c411 => 3 | .c410 => 4) := by
  cases m <;> rfl

/-- BYTESHI is the upper half of BYTES (10_state R35). -/
theorem bytesHi_eq (x : BitVec 64) : x.extractLsb' 32 32 = BitVec.ofNat 32 (x.toNat / 2 ^ 32) := by
  rw [← Nat.shiftRight_eq_div_pow]
  rfl

theorem registers_eq_map (s : State) : s.registers = ControlReg.inOrder.map s.readReg := by
  simp only [State.registers, BitVec.ofNat_toNat, ControlReg.inOrder, List.map_cons, List.map_nil, State.readReg, statusWord_eq,
    Mode.codeWord_eq, bytesHi_eq]
  rfl

theorem exec_rd_of_le {k : Byte} (hk : k.toNat ≤ 0x10) (s : State) :
    exec (.rd k) s = .next (s.answered (0x00#8 ++ s.registers.getD k.toNat 0#32)) := by
  have hlt : k.toNat < ControlReg.inOrder.length := Nat.lt_succ_of_le hk
  have hreg : ControlReg.ofIndex k = some ControlReg.inOrder[k.toNat] := by
    rw [ControlReg.ofIndex_eq, List.getElem?_eq_getElem hlt]
  rw [registers_eq_map, List.getD_eq_getElem _ _ (by simpa using hlt), List.getElem_map]
  simp only [exec, execRd, hreg]
  rfl

theorem exec_rd_of_lt {k : Byte} (hk : 0x10 < k.toNat) (s : State) : exec (.rd k) s = .next s.rejectMalformed := by
  have hreg : ControlReg.ofIndex k = none := by
    rw [ControlReg.ofIndex_eq]
    exact List.getElem?_eq_none hk
  simp only [exec, execRd, hreg]

/-- Settles O30: an index names the register at its place in the order, and beyond the last one RD is malformed. -/
theorem registerRead : Obligations.RegisterRead := by
  unfold Obligations.RegisterRead
  refine ⟨fun k => decode_zeroExtended rfl rfl, fun arg harg => ⟨illegalOutsideFailed_of_bound rfl harg, fun s rest hp hf => ?_⟩,
    fun s k => ⟨fun hk => exec_rd_of_le hk s, fun hk hs => ?_, fun hk hf => ?_⟩⟩
  · exact step_illegal_failed (decode_operandBits (form := .register) rfl harg) hp hf
  · rw [exec_rd_of_lt hk, rejectMalformed_live hs]
    rfl
  · rw [exec_rd_of_lt hk, rejectMalformed_failed hf]
    rfl

/-! ### CONV (44_session_commands R184, 41_colour_converter R103 to R105) -/

/-- A sample is the capped quotient itself where that is not negative. -/
theorem rounded_one_eq_ofInt {sum : Int} (h : 0 ≤ sum) : rounded sum 1 = BitVec.ofInt 8 (min 255 ((sum + 500) / 1000)) := by
  have hquotient : 0 ≤ min 255 ((sum + 500) / 1000) := by omega
  rw [← Int.toNat_of_nonneg hquotient, BitVec.ofInt_natCast]
  rfl

theorem luma_grey (v : Byte) : luma ⟨v, v, v⟩ = v := by
  apply BitVec.eq_of_toNat_eq
  rw [luma, rounded_toNat, rawLuma_grey]
  omega

theorem chromaBlue_grey (v : Byte) : chromaBlue ⟨v, v, v⟩ = 128#8 := by
  rw [chromaBlue, rawBlue_grey]
  rfl

theorem chromaRed_grey (v : Byte) : chromaRed ⟨v, v, v⟩ = 128#8 := by
  rw [chromaRed, rawRed_grey]
  rfl

/-- No luma reaches the cap (41_colour_converter R103, R112). -/
theorem luma_eq_ofInt (p : Pixel) : luma p = BitVec.ofInt 8 ((rawLuma p + 500) / 1000) := by
  have hhigh := rawLuma_spans.le_high p
  rw [luma, rounded_one_eq_ofInt (rawLuma_spans.low_le p), min_eq_right (by omega)]

theorem chromaBlue_eq_ofInt (p : Pixel) : chromaBlue p = BitVec.ofInt 8 (min 255 ((rawBlue p + 500) / 1000)) :=
  rounded_one_eq_ofInt (le_trans (by decide) (rawBlue_spans.low_le p))

theorem chromaRed_eq_ofInt (p : Pixel) : chromaRed p = BitVec.ofInt 8 (min 255 ((rawRed p + 500) / 1000)) :=
  rounded_one_eq_ofInt (le_trans (by decide) (rawRed_spans.low_le p))

/-- Settles O31: the three samples are the rounded raw values, and CONV only answers. -/
theorem convertPixel : Obligations.ConvertPixel := by
  unfold Obligations.ConvertPixel
  refine ⟨fun r g b => decode_encode (i := .conv ⟨r, g, b⟩) rfl, fun arg harg => illegalOutsideFailed_of_bound rfl harg,
    fun r g b => ⟨luma_eq_ofInt ⟨r, g, b⟩, chromaBlue_eq_ofInt ⟨r, g, b⟩, chromaRed_eq_ofInt ⟨r, g, b⟩⟩,
    fun v => ⟨luma_grey v, chromaBlue_grey v, chromaRed_grey v⟩, fun s p => ⟨fun hs => ?_, fun hf => ?_⟩⟩
  · rw [exec, execConv, whenNotFailed_live hs]
    rfl
  · rw [exec, execConv, whenNotFailed_failed hf]
    rfl

end Sys2Proof.Machine

namespace Sys2Proof.Machine

variable {s t : State} {i : Instr} {rest : List PortEvent} {w : PortWord}

/-- Settles O8: an empty port gives the step nothing to perform. -/
theorem stepWaitsForTheHost : Obligations.StepWaitsForTheHost := by
  unfold Obligations.StepWaitsForTheHost
  exact fun s hp => step_waiting hp

/-! ### State FAILED (60_exceptions R212 to R214) -/

theorem exec_failed (hf : s.session = .failed) (hrd : ∀ k, i ≠ .rd k) (hr : i ≠ .reset) :
    exec i s = .next (s.answered 0x0C00000000#40) := by
  cases i with
  | rd k => exact absurd rfl (hrd k)
  | reset => exact absurd rfl hr
  | abort c => exact exec_abort_failed hf c
  | conv p =>
    rw [exec, execConv, whenNotFailed_failed hf]
    rfl
  | pix | frame | close => exact (legalInOpenOnly_of_whenOpened (fun _ => rfl) s).2 hf
  | _ => exact (legalInIdleOnly_of_whenIdle (fun _ => rfl) s).2 hf

theorem step_failed_of_other_opcode {op : Byte} {arg : Word} (hf : s.session = .failed) (hp : s.port = .command (op ++ arg) :: rest)
    (hrd : op ≠ 0x30#8) (hr : op ≠ 0x3F#8) : step s = .next ((s.withPort rest).answered 0x0C00000000#40) := by
  cases hd : decode (op ++ arg) with
  | ok i =>
    have hop : opOf (encode i) = op := by rw [encode_of_decode hd, opOf_word]
    rw [step_command hp hd]
    refine exec_failed (s := s.withPort rest) hf (fun k => ?_) ?_
    · rintro rfl
      exact hrd (hop.symm.trans (opOf_word _ _))
    · rintro rfl
      exact hr (hop.symm.trans (opOf_word _ _))
  | error e => rw [step_illegal_failed hd hp hf, if_neg (not_or.mpr ⟨hrd, hr⟩)]

/-- A RD of no register is malformed by its index up to 0xFF and by its reserved bits from there on (44_session_commands R183). -/
theorem step_failed_of_bad_index {arg : Word} (hf : s.session = .failed) (hp : s.port = .command (0x30#8 ++ arg) :: rest)
    (harg : 0x10 < arg.toNat) : step s = .next ((s.withPort rest).answered 0x0800000000#40) := by
  by_cases hbyte : arg.toNat < 256
  · have hd : decode (0x30#8 ++ arg) = .ok (.rd (byteOperand arg)) := by
      rw [← commandWord_byteOperand hbyte]
      exact decode_encode (i := .rd _) rfl
    have hindex : 0x10 < (byteOperand arg).toNat := by rwa [toNat_byteOperand, Nat.mod_eq_of_lt hbyte]
    rw [step_command hp hd]
    exact (exec_rd_of_lt hindex _).trans (congrArg Host.Outcome.next (rejectMalformed_failed (s := s.withPort rest) hf))
  · exact step_illegal_failed (decode_operandBits (form := .register) rfl (Nat.le_of_not_lt hbyte)) hp hf

/-- Settles O12: a word that is neither RD nor RESET is refused, legal or not (`step_failed_of_other_opcode`); a malformed RD or RESET
is a command or a word that only answers 8. -/
theorem failedRefusesAllButRdAndReset : Obligations.FailedRefusesAllButRdAndReset := by
  unfold Obligations.FailedRefusesAllButRdAndReset
  intro s w rest hf hp
  obtain ⟨op, arg, rfl⟩ : ∃ op arg, op ++ arg = w := ⟨_, _, word_of_fields w⟩
  have hop : (op ++ arg).extractLsb' 32 8 = op := opOf_word op arg
  have harg : (op ++ arg).extractLsb' 0 32 = arg := argOf_word op arg
  rw [hop, harg]
  refine ⟨step_failed_of_other_opcode hf hp, ?_, ?_⟩
  · rintro rfl hbad
    exact step_failed_of_bad_index hf hp hbad
  · rintro rfl hbad
    exact step_illegal_failed (decode_of_operand_ne_zero rfl hbad) hp hf

/-- In FAILED a command other than RESET only responds (60_exceptions R212). -/
theorem Took.responds_of_failed (h : Took s i t) (hf : s.session = .failed) (hr : i ≠ .reset) : ∃ e d, t = s.respond e d := by
  cases h with
  | refused | badIndex | rd => exact ⟨_, _, rfl⟩
  | faulted _ _ hs | conv _ hs => exact absurd hf hs
  | reset => exact absurd rfl hr
  -- the other cases suppose IDLE or OPEN
  | _ => simp_all

/-- Settles O13: a reset gives the reset registers, any other step in FAILED waits or responds (`Took.responds_of_failed`). -/
theorem onlyResetLeavesFailed : Obligations.OnlyResetLeavesFailed := by
  unfold Obligations.OnlyResetLeavesFailed
  intro s t hf hstep
  by_cases hr : s.nextIsReset
  · obtain ⟨rest, rfl | rfl⟩ := step_reset hr hstep <;> exact .inr ⟨rfl, rfl, rfl, hr⟩
  · left
    rcases step_cases_of_not_reset hr hstep with rfl | ⟨rest, i, -, hne, ht⟩ | ⟨rest, hlive, -⟩ | ⟨rest, e, -, rfl⟩
    · exact ⟨hf, rfl⟩
    · obtain ⟨e, d, rfl⟩ := ht.responds_of_failed hf hne
      exact ⟨hf, rfl⟩
    · exact absurd hf hlive
    · exact ⟨hf, rfl⟩

/-! ### Faults (60_exceptions R206, R210, R211) -/

theorem nextIs_of_decode (hp : s.port = .command w :: rest) (hd : decode w = .ok i) : s.nextIs i := by
  rw [State.nextIs, hp, encode_of_decode hd]
  rfl

/-- What the sink had stays in front of what it takes (20_memory R58). -/
theorem out_prefix_sinkTakes (s : State) (n : Nat) (bs : List Byte) : s.out <+: (s.sinkTakes n bs).out := List.prefix_append _ _

/-- A command that takes the block to FAILED raises a fault of its row: one that changes nothing else, or the IoError of OPEN or FRAME
after what the sink took. -/
theorem Took.fault (h : Took s i t) (hs : s.session ≠ .failed) (ht : t.session = .failed) :
    (∃ c ∈ possibleFaults i, c ≠ .io ∧ t = s.raise c)
      ∨ (t.err = some .io ∧ .io ∈ possibleFaults i ∧ s.out <+: t.out ∧ (i = .frame ∨ ∃ m, i = openInstr m)) := by
  cases h with
  | faulted _ c _ row precise => exact .inl ⟨c, row, precise, rfl⟩
  | openShort m u _ _ hu =>
    subst hu
    exact .inr ⟨rfl, by cases m <;> simp [openInstr, possibleFaults], out_prefix_sinkTakes _ _ _, .inr ⟨m, rfl⟩⟩
  | frameShort => exact .inr ⟨rfl, by simp [possibleFaults], out_prefix_sinkTakes _ _ _, .inl rfl⟩
  | refused _ hf | badIndex _ hf => exact absurd hf hs
  -- a command performed does not end in FAILED
  | opened m u _ _ hu => subst hu; simp at ht
  | _ => simp_all

/-- Settles O16: an illegal word raises IllegalCommand at once, and a command faults as `Took.fault` says. -/
theorem faultsArePrecise : Obligations.FaultsArePrecise := by
  unfold Obligations.FaultsArePrecise
  intro s t rest w hp hs hstep ht
  cases hd : decode w with
  | ok i =>
    rw [step_command hp hd] at hstep
    have hnext := nextIs_of_decode hp hd
    rcases (exec_took hstep).fault hs ht with ⟨c, -, hc, rfl⟩ | ⟨herr, -, hout, hi⟩
    · exact ⟨fun _ => ⟨c, rfl⟩, fun herr => absurd (Option.some.inj herr) hc⟩
    · refine ⟨fun hne => absurd herr hne, fun _ => ⟨hout, ?_⟩⟩
      rcases hi with rfl | ⟨m, rfl⟩
      · exact .inl hnext
      · exact .inr ⟨m, hnext⟩
  | error e =>
    cases (step_illegal hp hd).symm.trans hstep
    rw [rejectIllegal_live (s := { s with port := rest }) (opOf w) hs]
    exact ⟨fun _ => ⟨.illegalCommand, rfl⟩, fun herr => by simp at herr⟩

/-- Settles O17: the fault of a command is of its row (`Took.fault`), and an illegal word raises IllegalCommand. -/
theorem faultsPerCommand : Obligations.FaultsPerCommand := by
  unfold Obligations.FaultsPerCommand
  intro s t w rest hp hs hstep ht
  cases hd : decode w with
  | ok i =>
    rw [step_command hp hd] at hstep
    rcases (exec_took hstep).fault hs ht with ⟨c, row, -, rfl⟩ | ⟨herr, row, -⟩
    · exact ⟨c, rfl, row⟩
    · exact ⟨.io, herr, row⟩
  | error e =>
    cases (step_illegal hp hd).symm.trans hstep
    rw [rejectIllegal_live (s := { s with port := rest }) (opOf w) hs]
    exact ⟨.illegalCommand, rfl, rfl⟩

end Sys2Proof.Machine

namespace Sys2Proof.Machine

variable {s : State} {native : Nat → Nat → Pixel} {rest : List PortEvent} {w h i j : Nat}

/-! ### The pixels supplied for a native picture (70_reset_and_hazards R238) -/

theorem suppliedPixels_succ (native : Nat → Nat → Pixel) (w h : Nat) :
    suppliedPixels native w (h + 1) = suppliedPixels native w h ++ (List.range w).map (native h) := by
  simp [suppliedPixels, List.range_succ]

@[simp] theorem suppliedPixels_length (native : Nat → Nat → Pixel) (w h : Nat) :
    (suppliedPixels native w h).length = w * h := by
  simp [suppliedPixels, List.length_flatMap, Nat.mul_comm]

/-- A place in a picture of width `w` and height `h` has its index below the picture's size (20_memory R52). -/
theorem pictureIndex_lt (hi : i < h) (hj : j < w) : i * w + j < w * h :=
  calc i * w + j < (i + 1) * w := by rw [Nat.succ_mul]; omega
    _ ≤ h * w := Nat.mul_le_mul_right w hi
    _ = w * h := Nat.mul_comm h w

/-- The supplied pixels, read as a picture of the cropped width, are the native picture's top left part: by induction on the rows, a
place is in the rows before the last or in the last. -/
theorem pictureOf_suppliedPixels (hi : i < h) (hj : j < w) : pictureOf w (suppliedPixels native w h) i j = native i j := by
  induction h with
  | zero => exact absurd hi (Nat.not_lt_zero i)
  | succ h ih =>
    rw [pictureOf, suppliedPixels_succ]
    rcases Nat.lt_succ_iff_lt_or_eq.mp hi with hbefore | rfl
    · rw [List.getD_append _ _ _ _ (by rw [suppliedPixels_length]; exact pictureIndex_lt hbefore hj)]
      exact ih hbefore
    · have hlength : (suppliedPixels native w i).length = i * w := by rw [suppliedPixels_length, Nat.mul_comm]
      rw [List.getD_append_right _ _ _ _ (by omega), hlength, Nat.add_sub_cancel_left]
      simp [hj]

/-- PIX commands that fill an empty frame leave their pixels as the picture that FRAME reads (44_session_commands R179, 20_memory
R53). -/
theorem run_picture {pixels : List Pixel} (hinv : Inv s) (ho : s.session = .opened) (hwp : s.wp = 0#32)
    (hlen : pixels.length = s.pictureSize) (hp : s.port = commandEvents (pixels.map fun p => .pix p) ++ rest) :
    ∃ t : State, core.run pixels.length s = .next t
      ∧ t = { s with pb := t.pb, wp := t.wp, port := rest, responses := t.responses }
      ∧ t.wp.toNat = t.pictureSize
      ∧ ∀ i j, i < t.eh.toNat → j < t.ew.toNat → t.px i j = pictureOf t.ew.toNat pixels i j := by
  have hzero : s.wp.toNat = 0 := by rw [hwp]; rfl
  obtain ⟨t, hrun, -, ht, htwp, -, hpb⟩ := run_pixels pixels hinv ho (by omega) hp
  have hsize : t.pictureSize = s.pictureSize := by rw [ht]; rfl
  refine ⟨t, hrun, ht, by omega, fun i j hi hj => ?_⟩
  have hplace : i * t.ew.toNat + j < pixels.length := by rw [hlen, ← hsize]; exact pictureIndex_lt hi hj
  have hread := hpb _ hplace
  rw [hzero, Nat.zero_add] at hread
  exact hread

/-- Settles O58: in a session EW and EH are the crop of the native size, so the supplied pixels fill the frame (`run_picture`), and as a
picture they are the native one (`pictureOf_suppliedPixels`). -/
theorem suppliedPixelsAreTheCroppedPicture : Obligations.SuppliedPixelsAreTheCroppedPicture := by
  unfold Obligations.SuppliedPixelsAreTheCroppedPicture
  refine ⟨fun native s rest hinv ho hwp hp => ?run, fun native w h i j hi hj =>
    ⟨suppliedPixels_length native w h, pictureOf_suppliedPixels hi hj⟩⟩
  case run =>
    obtain ⟨hew, heh⟩ := hinv.cropped ho
    rw [← hew, ← heh] at hp ⊢
    obtain ⟨t, hrun, ht, htwp, hpx⟩ := run_picture hinv ho hwp (suppliedPixels_length _ _ _) hp
    rw [suppliedPixels_length] at hrun
    have htew : t.ew = s.ew := by rw [ht]
    have hteh : t.eh = s.eh := by rw [ht]
    refine ⟨t, hrun, ht, by rw [htew], by rw [hteh], htwp, fun i j hi hj => ?_⟩
    rw [hpx i j hi hj, htew]
    exact pictureOf_suppliedPixels (hteh ▸ hi) (htew ▸ hj)

/-! ### The resets (70_reset_and_hazards section 1) -/

/-- Settles O9, with the contents of PB and EXT as they were: the hardware reset is `State.toReset`, and RESET responds after it. -/
theorem bothResetsGiveTheResetState : Obligations.BothResetsGiveTheResetState := by
  unfold Obligations.BothResetsGiveTheResetState
  exact fun s => ⟨s.pb, s.ext, fun _ hp => step_hardwareReset hp, rfl⟩

/-- Settles O10: after either reset the memories are those of the state before it (`step_reset`). -/
theorem resetKeepsTheBuffers : Obligations.ResetKeepsTheBuffers := by
  unfold Obligations.ResetKeepsTheBuffers
  intro s t hr hstep
  obtain ⟨rest, rfl | rfl⟩ := step_reset hr hstep <;> exact ⟨rfl, rfl⟩

end Sys2Proof.Machine

namespace Sys2Proof

/-! ### The opcode table's first matching row (30_encoding R74) -/

/-- A row that asks for an opcode and for the value `operand` in the operand's bits `reserved` covers the words of that opcode whose
operand has that value there. -/
theorem covers_word (name : String) (op : Byte) (operand reserved arg : Word) :
    (⟨name, op ++ operand, 0xFF#8 ++ reserved⟩ : OpcodeRow).covers (op ++ arg) = (arg &&& reserved == operand) := by
  have hop : op &&& 0xFF#8 = op := BitVec.and_allOnes
  rw [Bool.eq_iff_iff, OpcodeRow.covers, beq_iff_eq, beq_iff_eq, BitVec.and_append, hop]
  exact ⟨fun h => by simpa using congrArg argOf h, fun h => by rw [h]⟩

/-- A row whose mask is the opcode and a form's reserved bits covers the operands that the form accepts. -/
theorem covers_form (name : String) (op : Byte) (form : Form) (arg : Word) :
    (⟨name, op ++ 0#32, 0xFF#8 ++ form.reservedBits⟩ : OpcodeRow).covers (op ++ arg) = form.accepts arg :=
  covers_word name op 0#32 form.reservedBits arg

/-- A row whose mask is the whole word covers that word alone. -/
theorem covers_code (name : String) (op : Byte) (code arg : Word) :
    (⟨name, op ++ code, 0xFF#8 ++ BitVec.allOnes 32⟩ : OpcodeRow).covers (op ++ arg) = (arg == code) := by
  rw [covers_word, BitVec.and_allOnes]

/-- The table's rows of one opcode, in table order. -/
def rowsOf (op : Byte) : List OpcodeRow := opcodeTable.filter fun row => opOf row.pattern == op

theorem opOf_pattern_of_covers {row : OpcodeRow} {w : PortWord} (hrow : row ∈ opcodeTable) (h : row.covers w = true) :
    opOf row.pattern = opOf w := by
  have hmask : opOf row.mask = BitVec.allOnes 8 := (by decide : ∀ row ∈ opcodeTable, opOf row.mask = BitVec.allOnes 8) row hrow
  calc opOf row.pattern = opOf (w &&& row.mask) := by rw [eq_of_beq h]
    _ = opOf w &&& opOf row.mask := BitVec.extractLsb'_and
    _ = opOf w := by rw [hmask, BitVec.and_allOnes]

/-- Only the rows of a word's own opcode can match it. -/
theorem tableMnemonic_eq_find_rowsOf (w : PortWord) :
    tableMnemonic w = ((rowsOf (opOf w)).find? fun row => row.covers w).map fun row => row.mnemonic := by
  rw [tableMnemonic, rowsOf, List.find?_filter]
  congr 1
  refine List.find?_congr fun row hrow => ?_
  by_cases h : row.covers w = true
  · simp [h, opOf_pattern_of_covers hrow h]
  · simp [h]

theorem rowsOf_reserved {op : Byte} (hop : operation op = none) : rowsOf op = [] := by
  refine List.filter_eq_nil_iff.mpr fun row hrow heq => ?_
  have hassigned : (operation (opOf row.pattern)).isSome = true :=
    (by decide : ∀ row ∈ opcodeTable, (operation (opOf row.pattern)).isSome = true) row hrow
  rw [eq_of_beq heq, hop] at hassigned
  cases hassigned

/-- An opcode with one row, whose mask is the opcode and the form's reserved bits: the row matches the operands of the form. -/
theorem tableMnemonic_singleRow {name : String} {op : Byte} {form : Form}
    (hrows : rowsOf op = [⟨name, op ++ 0#32, 0xFF#8 ++ form.reservedBits⟩]) (arg : Word) :
    tableMnemonic (op ++ arg) = if form.accepts arg then some name else none := by
  rw [tableMnemonic_eq_find_rowsOf, opOf_word, hrows, List.find?_singleton, covers_form]
  split <;> rfl

/-- The rows of OPEN in table order: the five mode codes, then the row that covers every code. -/
theorem rowsOf_open : rowsOf 0x20#8 =
    [⟨"OPEN.C444", 0x20#8 ++ 0#32, 0xFF#8 ++ BitVec.allOnes 32⟩, ⟨"OPEN.C422", 0x20#8 ++ 1#32, 0xFF#8 ++ BitVec.allOnes 32⟩,
      ⟨"OPEN.C420", 0x20#8 ++ 2#32, 0xFF#8 ++ BitVec.allOnes 32⟩, ⟨"OPEN.C411", 0x20#8 ++ 3#32, 0xFF#8 ++ BitVec.allOnes 32⟩,
      ⟨"OPEN.C410", 0x20#8 ++ 4#32, 0xFF#8 ++ BitVec.allOnes 32⟩,
      ⟨"OPEN.BADMODE", 0x20#8 ++ 0#32, 0xFF#8 ++ Form.mode.reservedBits⟩] := rfl

/-- OPEN's rows agree with the decoding of its code: below 5 the code's own row is first, from 5 on the last row is the only one. -/
theorem tableMnemonic_open (arg : Word) :
    tableMnemonic (0x20#8 ++ arg) = if Form.mode.accepts arg then some (openWithCode (byteOperand arg)).mnemonic else none := by
  by_cases hlow : arg.toNat < 5
  · obtain ⟨k, hk, rfl⟩ : ∃ k < 5, arg = BitVec.ofNat 32 k := ⟨arg.toNat, hlow, by simp⟩
    interval_cases k <;> rfl
  · have hcode : ∀ k < 5, (arg == BitVec.ofNat 32 k) = false := fun k hk =>
      beq_eq_false_iff_ne.mpr fun h => hlow (by rw [h, BitVec.toNat_ofNat]; omega)
    rw [tableMnemonic_eq_find_rowsOf, opOf_word, rowsOf_open]
    simp only [List.find?_cons, List.find?_nil, covers_form, covers_code, hcode 0 (by decide), hcode 1 (by decide),
      hcode 2 (by decide), hcode 3 (by decide), hcode 4 (by decide)]
    cases hform : Form.mode.accepts arg with
    | false => rfl
    | true =>
      have hbyte : arg.toNat < 256 := (Form.accepts_iff .mode arg).mp hform
      have hbad : 5 ≤ (byteOperand arg).toNat := by rw [toNat_byteOperand]; omega
      rw [openWithCode_badmode hbad]
      rfl

/-- The table names the command of an assigned opcode exactly for the operands of its form. -/
theorem tableMnemonic_operation {op : Byte} {form : Form} {make : Word → Instr} (hop : operation op = some (form, make))
    (arg : Word) : tableMnemonic (op ++ arg) = if form.accepts arg then some (make arg).mnemonic else none := by
  unfold operation at hop
  split at hop <;> cases hop
  -- OPEN has six rows, every other opcode one
  case h_10 => exact tableMnemonic_open arg
  all_goals exact tableMnemonic_singleRow rfl arg

/-- Settles O4: a reserved opcode has no row (`rowsOf_reserved`), and the rows of an assigned one match the operands of its form and
name its command (`tableMnemonic_operation`). -/
theorem firstTableRowDecides : Obligations.FirstTableRowDecides := by
  unfold Obligations.FirstTableRowDecides
  intro w
  obtain ⟨op, arg, rfl⟩ : ∃ (op : Byte) (arg : Word), w = op ++ arg := ⟨opOf w, argOf w, (word_of_fields w).symm⟩
  cases hop : operation op with
  | none =>
    rw [decode_reserved hop, tableMnemonic_eq_find_rowsOf, opOf_word, rowsOf_reserved hop]
    rfl
  | some row =>
    obtain ⟨form, make⟩ := row
    simp only [decode_word hop, tableMnemonic_operation hop, Form.accepts_iff]
    split <;> rfl

/-! ### Encoding and decoding (30_encoding R73, R74, R77) -/

/-- Settles O2: every constructor's word has an opcode whose row accepts the operand and makes the command again (`decode_encode`). -/
theorem encodeThenDecode : Obligations.EncodeThenDecode := by
  unfold Obligations.EncodeThenDecode
  exact fun _ hwf => decode_encode hwf

/-- Settles O1: the legal words of 95_test_vectors section 2.1 and the illegal ones are fixed, so the decoder computes each answer. -/
theorem specWordsDecode : Obligations.SpecWordsDecode := by
  unfold Obligations.SpecWordsDecode
  decide

end Sys2Proof
